-- ==== Sys2Proof/Word.lean ====
section
/-! DEFINITION. The byte of the request and response frames (R164): the one place where the manual lays out bits. -/

namespace Sys2Proof

/-- One byte of a frame (R164). -/
abbrev Byte := BitVec 8

end Sys2Proof
end

