-- ==== Sys2Proof/Machine/Bytes.lean ====
section
/-! DEFINITION. Numbers as bytes of a frame, and the frame check (R164). -/

namespace Sys2Proof.Machine

/-- A number in `w` bytes, most significant byte first (R164). -/
def beBytes : Nat → Nat → List Byte
  | 0, _ => []
  | w + 1, n => BitVec.ofNat 8 (n / 256 ^ w) :: beBytes w n

/-- The number that bytes carry, most significant byte first. -/
def beNat (bs : List Byte) : Nat := bs.foldl (fun n b => n * 256 + b.toNat) 0

/-- A signed number in `w` bytes of two's complement (R164). -/
def beSigned (w : Nat) (x : Int) : List Byte := beBytes w (x % (256 ^ w : Nat)).toNat

/-- The signed number that `w` bytes of two's complement carry. -/
def beInt (w n : Nat) : Int := if 2 * n < 256 ^ w then (n : Int) else (n : Int) - (256 ^ w : Nat)

/-- One bit of the frame check's division: polynomial x^8 + x^2 + x + 1 (R164). -/
def crcBit (c : Byte) : Byte := if c.msb then (c <<< 1) ^^^ 7#8 else c <<< 1

/-- One byte of the frame check, most significant bit first. -/
def crcByte (c b : Byte) : Byte := Nat.repeat crcBit 8 (c ^^^ b)

/-- The frame check of a run of bytes: initial value 0, no final inversion (R164). -/
def frameCheck (bs : List Byte) : Byte := bs.foldl crcByte 0#8

/-- A frame: its length, its code, its fields and its check (R164). -/
def frameOf (code : Nat) (fields : List Byte) : List Byte :=
  let head := BitVec.ofNat 8 (fields.length + 3) :: BitVec.ofNat 8 code :: fields
  head ++ [frameCheck head]

/-- A field that may be absent: a presence byte, then the field when it is present (R164). -/
def optBytes {α : Type} (f : α → List Byte) : Option α → List Byte
  | none => [0#8]
  | some x => 1#8 :: f x

/-- A list field: a count byte, then the items (R164). -/
def listBytes {α : Type} (f : α → List Byte) (xs : List α) : List Byte :=
  BitVec.ofNat 8 xs.length :: xs.flatMap f

/-- The whole bytes of a run of bits, eight clocks a byte, most significant bit first; the bits of a last, partial
byte are discarded (R163). -/
def wholeBytes : List Bool → List Byte
  | b7 :: b6 :: b5 :: b4 :: b3 :: b2 :: b1 :: b0 :: rest =>
    BitVec.ofNat 8 ([b7, b6, b5, b4, b3, b2, b1, b0].foldl (fun n b => 2 * n + b.toNat) 0) :: wholeBytes rest
  | _ => []

end Sys2Proof.Machine
end

