-- ==== Sys2Proof/Syntax.lean ====
section
/-! DEFINITION. The commands of the part: one constructor of `Instr` for each row of spec/opcode_table.json.
A request's fields stand as its frame carries them (R164), before any range check; the checks are the meanings'. -/

namespace Sys2Proof

/-- The two radios and their ports (00_scope 3.1). -/
inductive Radio where
  | A | B
deriving DecidableEq, Repr

/-- The port on which a request arrives (R163). -/
inductive Port where
  | station
  | radio (r : Radio)
deriving DecidableEq, Repr

/-- The two supply-condition input lines (R155). -/
inductive Line where
  | lowv | critv
deriving DecidableEq, Repr

/-- One cell report of a CELL REPORT request, as carried (thirteen bytes, R164). -/
structure RawReport where
  network : Nat
  generation : Nat
  cell : Nat
  channel : Nat
  level : Int
  quality : Nat
deriving DecidableEq, Repr

/-- The fields of SET PROFILE in the order it carries them (R168). -/
structure ProfileFields where
  smoothing : Nat
  fade : Nat
  lost : Nat
  relax : Nat
  bias2 : Int
  bias3 : Int
  bias4 : Int
  bias5 : Int
  exponent : Nat
  recovery : Nat
  arrangement : Nat
  operate : Nat
  pause : Nat
  dual : Nat
  stagger : Nat
  setup : Nat
  answer : Nat
  backoff : Nat
  exclusion : Nat
  window : Nat
deriving DecidableEq, Repr

/-- The commands, in the order of spec/opcode_table.json. -/
inductive Instr where
  | powerOnReset
  | selectAssert (p : Port)
  | emptySelectPeriod (p : Port)
  | frameError (p : Port)
  | unknownRequest (p : Port)
  | noOp (p : Port)
  | readNotice (p : Port)
  | setNoticeEnables (p : Port) (kinds : Nat)
  | readRanked (p : Port) (start count order : Nat)
  | announce (p : Port) (generations : List Nat) (identity : Nat)
  | moduleStatus (p : Port) (ready fault : Nat)
  | cellReport (p : Port) (count : Nat) (reports : List RawReport)
  | takeOrder (p : Port)
  | progress (p : Port) (number kind cause : Nat)
  | surveyDone (p : Port)
  | incoming (p : Port)
  | callStart (p : Port)
  | callEnd (p : Port)
  | answer (p : Port)
  | readCall (p : Port)
  | setProfile (p : Port) (fields : ProfileFields)
  | readProfile (p : Port)
  | writePreference (p : Port) (index empty code tier : Nat)
  | readPreference (p : Port) (index : Nat)
  | lockPreferences (p : Port) (boundary direction : Nat)
  | setSurveyMode (p : Port) (mode : Nat)
  | readEntry (p : Port) (slot : Nat)
  | readRadio (p : Port) (radio : Nat)
  | readStatus (p : Port)
  | takeJournal (p : Port)
  | setJournalMark (p : Port) (mark : Nat)
  | linkCheck (p : Port) (port setting : Nat)
  | resetPart (p : Port)
  | supplyLineChange (l : Line) (level : Bool)
  | qualifyingTimerExpiry (l : Line)
  | linkCheckTimerExpiry (r : Radio)
  | silenceTimerExpiry (r : Radio)
  | startTimerExpiry (r : Radio)
  | takeDeadlineExpiry (r : Radio)
  | silentHoldExpiry (r : Radio)
  | fadeTimeReached (slot : Nat)
  | lostTimeReached (slot : Nat)
  | entryRelease (slot : Nat)
  | exclusionExpiry (slot : Nat)
  | creditRelaxExpiry
  | windowTimerExpiry (r : Radio)
  | pauseExpiry (r : Radio)
  | sharedPauseExpiry
  | backoffExpiry
  | endingTimerExpiry
  | setupDeadlineExpiry (number : Nat)
  | answerDeadlineExpiry (number : Nat)
  | staggerTimerExpiry
  | callbackWindowExpiry
  | resetInputAsserted
deriving DecidableEq, Repr

end Sys2Proof
end

