-- ==== Sys2Proof/Decode.lean ====
section
/-! DEFINITION. Which command a select period stands for: the frame checks of R165 over the bytes shifted in (R163,
R164, R166), and the request frame of a command.  No row of spec/opcode_table.json has bits, so no word spells a
command. -/

namespace Sys2Proof

open Sys2Proof.Machine

/-! ### Fields of a request -/

/-- Numbers of the given widths in bytes, read from the front of a run of bytes. -/
def splitFields : List Nat → List Byte → List Nat
  | [], _ => []
  | w :: ws, bs => beNat (bs.take w) :: splitFields ws (bs.drop w)

/-- Fields of the given widths that fill the bytes exactly (R165, step 5). -/
def exactFields (ws : List Nat) (bs : List Byte) : Option (List Nat) :=
  if bs.length = ws.sum then some (splitFields ws bs) else none

/-- Numbers in the given widths, one after another (R164). -/
def writeFields (l : List (Nat × Nat)) : List Byte := l.flatMap fun x => beBytes x.1 x.2

/-- The thirteen bytes of a cell report (R164). -/
def reportOfBytes (bs : List Byte) : RawReport where
  network := beNat (bs.take 3)
  generation := beNat ((bs.drop 3).take 1)
  cell := beNat ((bs.drop 4).take 4)
  channel := beNat ((bs.drop 8).take 2)
  level := beInt 2 (beNat ((bs.drop 10).take 2))
  quality := beNat ((bs.drop 12).take 1)

/-- As many cell reports as the count states. -/
def reportsOfBytes : Nat → List Byte → List RawReport
  | 0, _ => []
  | n + 1, bs => reportOfBytes (bs.take 13) :: reportsOfBytes n (bs.drop 13)

/-- The bytes of a cell report (R164). -/
def reportBytes (x : RawReport) : List Byte :=
  beBytes 3 x.network ++ beBytes 1 x.generation ++ beBytes 4 x.cell ++ beBytes 2 x.channel ++ beSigned 2 x.level
    ++ beBytes 1 x.quality

/-- ANNOUNCE: a count byte, that many generations, and the module identity in four bytes (R57, R164). -/
def announceOfBytes (p : Port) : List Byte → Option Instr
  | [] => none
  | c :: rest =>
    if rest.length = c.toNat + 4 then
      some (.announce p ((rest.take c.toNat).map BitVec.toNat) (beNat (rest.drop c.toNat)))
    else none

/-- CELL REPORT: a count byte, then the reports; a count outside 1 to 6 passes whatever follows it (R165, step 5). -/
def cellReportOfBytes (p : Port) : List Byte → Option Instr
  | [] => none
  | c :: rest =>
    if 1 ≤ c.toNat ∧ c.toNat ≤ 6 then
      if rest.length = 13 * c.toNat then some (.cellReport p c.toNat (reportsOfBytes c.toNat rest)) else none
    else some (.cellReport p c.toNat [])

/-- The widths of SET PROFILE's fields (R168). -/
def profileWidths : List Nat := [1, 1, 2, 2, 1, 1, 1, 1, 1, 1, 1, 1, 2, 1, 1, 1, 1, 2, 2, 2]

/-- SET PROFILE's fields in the order of R168. -/
def profileOfFields : List Nat → Option ProfileFields
  | [k, fade, lost, relax, b2, b3, b4, b5, e, rec, arr, op, pause, dual, stag, setup, ans, back, excl, win] =>
    some ⟨k, fade, lost, relax, beInt 1 b2, beInt 1 b3, beInt 1 b4, beInt 1 b5, e, rec, arr, op, pause, dual, stag,
      setup, ans, back, excl, win⟩
  | _ => none

/-- The bytes of SET PROFILE's fields (R164, R168). -/
def profileBytes (f : ProfileFields) : List Byte :=
  writeFields [(1, f.smoothing), (1, f.fade), (2, f.lost), (2, f.relax)] ++ beSigned 1 f.bias2 ++ beSigned 1 f.bias3
    ++ beSigned 1 f.bias4 ++ beSigned 1 f.bias5
    ++ writeFields [(1, f.exponent), (1, f.recovery), (1, f.arrangement), (1, f.operate), (2, f.pause), (1, f.dual),
      (1, f.stagger), (1, f.setup), (1, f.answer), (2, f.backoff), (2, f.exclusion), (2, f.window)]

/-- A request with no field. -/
def noFields (i : Instr) (bs : List Byte) : Option Instr := if bs.length = 0 then some i else none

/-- A request with one byte. -/
def oneByte (f : Nat → Instr) (bs : List Byte) : Option Instr :=
  match exactFields [1] bs with
  | some [a] => some (f a)
  | _ => none

/-- A request with two bytes. -/
def twoBytes (f : Nat → Nat → Instr) (bs : List Byte) : Option Instr :=
  match exactFields [1, 1] bs with
  | some [a, b] => some (f a b)
  | _ => none

/-- A request with three bytes. -/
def threeBytes (f : Nat → Nat → Nat → Instr) (bs : List Byte) : Option Instr :=
  match exactFields [1, 1, 1] bs with
  | some [a, b, c] => some (f a b c)
  | _ => none

/-- WRITE PREFERENCE: index, empty indication, network code in three bytes, tier (03_the_preference_list 3.2). -/
def writePreferenceOfBytes (p : Port) (bs : List Byte) : Option Instr :=
  match exactFields [1, 1, 3, 1] bs with
  | some [i, e, c, t] => some (.writePreference p i e c t)
  | _ => none

/-- SET PROFILE (R168). -/
def setProfileOfBytes (p : Port) (bs : List Byte) : Option Instr :=
  ((exactFields profileWidths bs).bind profileOfFields).map (.setProfile p)

/-- A defined request code and the request that its fields spell: the outer `none` is an undefined code (R166), the
inner `none` a length that does not agree with the fields (R165, step 5). -/
def requestOf (p : Port) (code : Nat) (bs : List Byte) : Option (Option Instr) :=
  match code with
  | 0x01 => some (noFields (.noOp p) bs)
  | 0x02 => some (noFields (.readNotice p) bs)
  | 0x03 => some (oneByte (.setNoticeEnables p) bs)
  | 0x04 => some (threeBytes (.readRanked p) bs)
  | 0x10 => some (announceOfBytes p bs)
  | 0x11 => some (twoBytes (.moduleStatus p) bs)
  | 0x12 => some (cellReportOfBytes p bs)
  | 0x13 => some (noFields (.takeOrder p) bs)
  | 0x14 => some (threeBytes (.progress p) bs)
  | 0x15 => some (noFields (.surveyDone p) bs)
  | 0x16 => some (noFields (.incoming p) bs)
  | 0x20 => some (noFields (.callStart p) bs)
  | 0x21 => some (noFields (.callEnd p) bs)
  | 0x22 => some (noFields (.answer p) bs)
  | 0x23 => some (noFields (.readCall p) bs)
  | 0x28 => some (setProfileOfBytes p bs)
  | 0x29 => some (noFields (.readProfile p) bs)
  | 0x2C => some (writePreferenceOfBytes p bs)
  | 0x2D => some (oneByte (.readPreference p) bs)
  | 0x2E => some (twoBytes (.lockPreferences p) bs)
  | 0x30 => some (oneByte (.setSurveyMode p) bs)
  | 0x34 => some (oneByte (.readEntry p) bs)
  | 0x35 => some (oneByte (.readRadio p) bs)
  | 0x36 => some (noFields (.readStatus p) bs)
  | 0x38 => some (noFields (.takeJournal p) bs)
  | 0x39 => some (oneByte (.setJournalMark p) bs)
  | 0x3C => some (twoBytes (.linkCheck p) bs)
  | 0x3F => some (noFields (.resetPart p) bs)
  | _ => none

/-! ### The checks of a select period (R163, R165) -/

/-- Steps 4 and 5 of R165. -/
def judgeRequest (p : Port) (code : Byte) (fields : List Byte) : Instr :=
  match requestOf p code.toNat fields with
  | none => .unknownRequest p
  | some none => .frameError p
  | some (some i) => i

/-- Steps 3 to 5 of R165, on the first L bytes. -/
def judgeFrame (p : Port) (frame : List Byte) : Instr :=
  if frame.getLast? = some (frameCheck frame.dropLast) then
    judgeRequest p (frame.getD 1 0#8) ((frame.drop 2).dropLast)
  else .frameError p

/-- The command that the bytes of a select period stand for (R163, R165). -/
def judgePeriod (p : Port) (bytes : List Byte) : Instr :=
  match bytes with
  | [] => .emptySelectPeriod p
  | b :: _ =>
    if b = 0xFF#8 then .emptySelectPeriod p
    else if b.toNat < 3 ∨ 96 < b.toNat then .frameError p
    else if bytes.length < b.toNat ∨ (bytes.drop b.toNat).any (· != 0xFF#8) then .frameError p
    else judgeFrame p (bytes.take b.toNat)

/-- The command that the bits shifted in stand for: only whole bytes are judged (R163). -/
def judgeBits (p : Port) (bits : List Bool) : Instr := judgePeriod p (wholeBytes bits)

/-! ### The frame of a request -/

/-- The code and the fields of a request, `none` for a command that is not a request (R164, R166). -/
def Instr.request : Instr → Option (Nat × List Byte)
  | .noOp _ => some (0x01, [])
  | .readNotice _ => some (0x02, [])
  | .setNoticeEnables _ kinds => some (0x03, writeFields [(1, kinds)])
  | .readRanked _ start count order => some (0x04, writeFields [(1, start), (1, count), (1, order)])
  | .announce _ generations identity =>
    some (0x10, BitVec.ofNat 8 generations.length :: generations.map (BitVec.ofNat 8) ++ beBytes 4 identity)
  | .moduleStatus _ ready fault => some (0x11, writeFields [(1, ready), (1, fault)])
  | .cellReport _ count reports => some (0x12, BitVec.ofNat 8 count :: reports.flatMap reportBytes)
  | .takeOrder _ => some (0x13, [])
  | .progress _ number kind cause => some (0x14, writeFields [(1, number), (1, kind), (1, cause)])
  | .surveyDone _ => some (0x15, [])
  | .incoming _ => some (0x16, [])
  | .callStart _ => some (0x20, [])
  | .callEnd _ => some (0x21, [])
  | .answer _ => some (0x22, [])
  | .readCall _ => some (0x23, [])
  | .setProfile _ fields => some (0x28, profileBytes fields)
  | .readProfile _ => some (0x29, [])
  | .writePreference _ index empty code tier =>
    some (0x2C, writeFields [(1, index), (1, empty), (3, code), (1, tier)])
  | .readPreference _ index => some (0x2D, writeFields [(1, index)])
  | .lockPreferences _ boundary direction => some (0x2E, writeFields [(1, boundary), (1, direction)])
  | .setSurveyMode _ mode => some (0x30, writeFields [(1, mode)])
  | .readEntry _ slot => some (0x34, writeFields [(1, slot)])
  | .readRadio _ radio => some (0x35, writeFields [(1, radio)])
  | .readStatus _ => some (0x36, [])
  | .takeJournal _ => some (0x38, [])
  | .setJournalMark _ mark => some (0x39, writeFields [(1, mark)])
  | .linkCheck _ port setting => some (0x3C, writeFields [(1, port), (1, setting)])
  | .resetPart _ => some (0x3F, [])
  | .powerOnReset | .selectAssert _ | .emptySelectPeriod _ | .frameError _ | .unknownRequest _
  | .supplyLineChange _ _ | .qualifyingTimerExpiry _ | .linkCheckTimerExpiry _ | .silenceTimerExpiry _
  | .startTimerExpiry _ | .takeDeadlineExpiry _ | .silentHoldExpiry _ | .fadeTimeReached _ | .lostTimeReached _
  | .entryRelease _ | .exclusionExpiry _ | .creditRelaxExpiry | .windowTimerExpiry _ | .pauseExpiry _
  | .sharedPauseExpiry | .backoffExpiry | .endingTimerExpiry | .setupDeadlineExpiry _ | .answerDeadlineExpiry _
  | .staggerTimerExpiry | .callbackWindowExpiry | .resetInputAsserted => none

/-- The port on which a command arrives, for the commands of the ports (R163). -/
def Instr.port : Instr → Option Port
  | .selectAssert p | .emptySelectPeriod p | .frameError p | .unknownRequest p | .noOp p | .readNotice p
  | .setNoticeEnables p _ | .readRanked p _ _ _ | .announce p _ _ | .moduleStatus p _ _ | .cellReport p _ _
  | .takeOrder p | .progress p _ _ _ | .surveyDone p | .incoming p | .callStart p | .callEnd p | .answer p
  | .readCall p | .setProfile p _ | .readProfile p | .writePreference p _ _ _ _ | .readPreference p _
  | .lockPreferences p _ _ | .setSurveyMode p _ | .readEntry p _ | .readRadio p _ | .readStatus p | .takeJournal p
  | .setJournalMark p _ | .linkCheck p _ _ | .resetPart p => some p
  | .powerOnReset | .supplyLineChange _ _ | .qualifyingTimerExpiry _ | .linkCheckTimerExpiry _ | .silenceTimerExpiry _
  | .startTimerExpiry _ | .takeDeadlineExpiry _ | .silentHoldExpiry _ | .fadeTimeReached _ | .lostTimeReached _
  | .entryRelease _ | .exclusionExpiry _ | .creditRelaxExpiry | .windowTimerExpiry _ | .pauseExpiry _
  | .sharedPauseExpiry | .backoffExpiry | .endingTimerExpiry | .setupDeadlineExpiry _ | .answerDeadlineExpiry _
  | .staggerTimerExpiry | .callbackWindowExpiry | .resetInputAsserted => none

/-- The request frame of a request (R164). -/
def Instr.frame (i : Instr) : Option (List Byte) := i.request.map fun x => frameOf x.1 x.2

/-- The command that a word of table bits spells: none, since no row of the table gives bits (log entry 12). -/
def decodeTableWord (_nbits _w : Nat) : Option Instr := none

end Sys2Proof
end

