-- ==== Sys2Proof/Config.lean ====
section
/-! DEFINITION. The numbers the manual fixes for every part: capacities, fixed times and the part's identity.
Nothing here is free: the manual leaves no value open that a command's result depends on. -/

namespace Sys2Proof.Config

/-- Largest saturating count of milliseconds (R5, R148, R164). -/
def maxMs : Nat := 4294967295

/-- Seconds of the running time before it wraps to 0 (R149). -/
def runningWrap : Nat := 4294967296

/-- Entries kept by CRITICAL retention, and the bound above the pinned count (R17, R18). -/
def criticalKeep : Nat := 8

/-- Credit of a newcomer, and the value credit relaxes toward (R3, R16). -/
def creditRest : Nat := 8

/-- Length of the start timer, in ms (R60). -/
def startTime : Nat := 30000

/-- Time within which an ATTEMPT order must be taken, in ms (R68). -/
def takeTime : Nat := 2000

/-- Grace after a survey window, in ms (R79). -/
def windowGrace : Nat := 2000

/-- Longest effective pause, in s (R75). -/
def maxPause : Nat := 3600

/-- Longest back-off, in ms (R96). -/
def maxBackoff : Nat := 16000

/-- Length of the ending timer, in ms (R99). -/
def endingTime : Nat := 5000

/-- Time a supply line must hold a level, in ms (R156). -/
def qualifyTime : Nat := 500

/-- Length of the link-check timer, in ms (R169). -/
def linkCheckTime : Nat := 10000

/-- Capacity of the journal (R147). -/
def journalSize : Nat := 32

/-- Part identity and silicon revision given by READ STATUS (R174). -/
def partIdentity : Nat := 3150
def siliconRevision : Nat := 1

end Sys2Proof.Config
end

