-- ==== Sys2Proof/Machine/State.lean ====
section
/-! DEFINITION. The state of the part, as plain data: every piece of state the chapters name, block by block, and the
queue of waiting commands.  A timer that is not running is `none`.  `State.reset` is the state right after power-on
reset (R176). -/

namespace Sys2Proof.Machine

/-- No command of the part ends in a fault: a refused request is answered with a code and the part goes on
(00_scope 4.5).  Nothing raises a fault; that is safe. -/
inductive Fault where
deriving DecidableEq, Repr

/-- Why a step has no meaning. -/
inductive Refusal where
  /-- Raised only by an arm of `exec` whose command has no meaning yet; no arm does.  Safe: it stops. -/
  | notModelled (mnemonic : String)
deriving DecidableEq, Repr

/-- One value for each radio. -/
structure PerRadio (α : Type) where
  a : α
  b : α
deriving DecidableEq, Repr

/-- One value for each port. -/
structure PerPort (α : Type) where
  station : α
  a : α
  b : α
deriving DecidableEq, Repr

/-- Running time: whole seconds with the count of milliseconds within the second (R149). -/
structure Time where
  sec : Nat
  ms : Nat
deriving DecidableEq, Repr

/-! ### Reach table (chapter 1) -/

/-- The states in which an entry is in the ranked list (R19). -/
inductive Heard where
  | fresh | steady | fading
deriving DecidableEq, Repr

/-- State of an occupied entry with its held-from (R1): held-from is present exactly in HELD. -/
inductive EntryState where
  | ranked (h : Heard)
  | held (from_ : Heard)
  | lost
deriving DecidableEq, Repr

/-- An occupied entry (R1). -/
structure Entry where
  radio : Radio
  network : Nat
  generation : Nat
  cell : Nat
  channel : Nat
  level : Int
  quality : Option Nat
  reports : Nat
  credit : Nat
  tier : Nat
  state : EntryState
  age : Nat
  excludedFor : Option Nat
  pin : Bool
  score : Nat
deriving DecidableEq, Repr

/-- The 48 slots; `none` is a FREE entry, which has no other field (R1). -/
abbrev Slots := Vector (Option Entry) 48

/-- The reach table (R1, R10, R16). -/
structure ReachTable where
  slots : Slots
  silentHold : PerRadio (Option Nat)
  relax : Nat
deriving DecidableEq, Repr

/-! ### Preference list (chapter 3) -/

/-- A network code and its tier (R41). -/
structure Preference where
  code : Nat
  tier : Nat
deriving DecidableEq, Repr

/-- Direction of the lock (R49). -/
inductive LockDirection where
  | lower | upper
deriving DecidableEq, Repr

/-- Boundary and direction of a lock that has been taken (R49). -/
structure Lock where
  boundary : Nat
  direction : LockDirection
deriving DecidableEq, Repr

/-- The list and its lock; the lock flag is set exactly when `lock` is present (R48, R49). -/
structure Preferences where
  list : Vector (Option Preference) 16
  lock : Option Lock
deriving DecidableEq, Repr

/-! ### Radio supervisor (chapter 4) -/

/-- Radio states (R52). -/
inductive RadioState where
  | off | starting | ready | surveying | attempting | inCall | snooze | silent | fault
deriving DecidableEq, Repr

/-- A set of the generations 2 to 5 (R52). -/
structure GenerationSet where
  g2 : Bool
  g3 : Bool
  g4 : Bool
  g5 : Bool
deriving DecidableEq, Repr

/-- Reasons of a CANCEL order (R65). -/
inductive CancelReason where
  | callerEnd | surplus | recovery | endingTimeout
deriving DecidableEq, Repr

/-- Actions of a POWER order (R65). -/
inductive PowerAction where
  | snooze | wake
deriving DecidableEq, Repr

/-- Actions of a CALLBACK order (R65). -/
inductive CallbackAction where
  | hold (network cell : Nat)
  | answer
  | stop
deriving DecidableEq, Repr

/-- Orders (R65). -/
inductive Order where
  | attempt (number slot network generation cell channel : Nat)
  | cancel (number : Nat) (reason : CancelReason)
  | survey (window : Nat) (urgent : Bool)
  | power (action : PowerAction)
  | callback (action : CallbackAction)
deriving DecidableEq, Repr

/-- The five kinds of order (R65). -/
inductive OrderKind where
  | attempt | cancel | survey | power | callback
deriving DecidableEq, Repr

/-- Intake counts (R28). -/
structure IntakeCounts where
  taken : Nat
  clamped : Nat
  contradictory : Nat
  implausible : Nat
  tableFull : Nat
deriving DecidableEq, Repr

/-- One radio context (R52). -/
structure RadioContext where
  state : RadioState
  generations : Option GenerationSet
  identity : Option Nat
  silence : Option Nat
  start : Option Nat
  queue : List Order
  take : Option Nat
  counts : IntakeCounts
deriving DecidableEq, Repr

/-! ### Survey scheduler (chapter 5) -/

/-- Survey modes (R72). -/
inductive SurveyMode where
  | off | once | continuous | paused
deriving DecidableEq, Repr

/-- Arrangements (R72). -/
inductive Arrangement where
  | parallel | alternate
deriving DecidableEq, Repr

/-- A pause: the remaining time, counting or held (R72, R83). -/
structure Pause where
  remaining : Nat
  held : Bool
deriving DecidableEq, Repr

/-- A radio's survey state with the items present in it (R72, R73): its own pause in WAITING under PARALLEL, the
urgent mark in ORDERED and RUNNING, the window length and timer in RUNNING. -/
inductive SurveyState where
  | waiting (own : Option Pause)
  | due
  | ordered (urgent : Bool)
  | running (urgent : Bool) (window : Nat) (timer : Nat)
deriving DecidableEq, Repr

/-- The survey scheduler (R72). -/
structure Scheduler where
  mode : SurveyMode
  onceDone : Bool
  owed : PerRadio Bool
  states : PerRadio SurveyState
  shared : Option Pause
  last : Option Radio
  urgent : Bool
  operate : Nat
  pause : Nat
  operatePreload : Option Nat
  pausePreload : Option Nat
deriving DecidableEq, Repr

/-! ### Call controller (chapters 6 to 9) -/

/-- Call states (R87). -/
inductive CallState where
  | idle | seeking | placing | backoff | connected | recovering | ending | callback
deriving DecidableEq, Repr

/-- Steps of an attempt (R103, R104). -/
inductive AttemptStep where
  | ordered | taken | accepted | alerting | connected
deriving DecidableEq, Repr

/-- Dispositions (R103): CANCEL with reason CALLER_END, or SURPLUS. -/
inductive Disposition where
  | cancel | surplus
deriving DecidableEq, Repr

/-- An attempt in flight (R103). -/
structure Attempt where
  number : Nat
  radio : Radio
  slot : Nat
  network : Nat
  generation : Nat
  cell : Nat
  step : AttemptStep
  ordered : Time
  connected : Option Time
  disposition : Option Disposition
  setup : Option Nat
  answer : Option Nat
deriving DecidableEq, Repr

/-- Stagger state, with its timer in COUNTING (R122). -/
inductive Stagger where
  | stopped
  | counting (ms : Nat)
  | opened
deriving DecidableEq, Repr

/-- A connection's radio, slot and cell: the note of the last connection (R138). -/
structure ConnectionNote where
  radio : Radio
  slot : Nat
  network : Nat
  generation : Nat
  cell : Nat
deriving DecidableEq, Repr

/-- Ring states of an offer (R138). -/
inductive Ring where
  | ringing | answering
deriving DecidableEq, Repr

/-- An offer; a callback leg is up while `connected` is present (R138). -/
structure Offer where
  radio : Radio
  ring : Ring
  connected : Option Time
deriving DecidableEq, Repr

/-- The held radio with its held values and held slot (R138). -/
structure Held where
  radio : Radio
  network : Nat
  generation : Nat
  cell : Nat
  slot : Option Nat
deriving DecidableEq, Repr

/-- The callback part (R138). -/
structure CallbackPart where
  length : Nat
  timer : Nat
  counting : Bool
  held : Option Held
  offer : Option Offer
deriving DecidableEq, Repr

/-- The call record with the stagger, the note of the last connection and the voice route (R87, R122, R136, R138). -/
structure CallRecord where
  state : CallState
  number : Nat
  startTime : Option Time
  nextAttempt : Nat
  attempts : List Attempt
  failures : Nat
  radioFailures : PerRadio Nat
  lastFailed : Option Radio
  carrying : Option (Radio × Nat)
  everConnected : Bool
  recoveries : Nat
  part : Option CallbackPart
  note : Option ConnectionNote
  backoff : Option Nat
  ending : Option Nat
  stagger : Stagger
  route : Option Radio
  lineA : Bool
  lineB : Bool
deriving DecidableEq, Repr

/-! ### Journal (chapter 10) -/

/-- Failure causes (R111, R148). -/
inductive Cause where
  | noService | rejected | networkBusy | radioFault | radioSilent | takeTimeout | setupTimeout | answerTimeout
deriving DecidableEq, Repr

/-- Outcomes of a record (R148). -/
inductive RecordOutcome where
  | failed (c : Cause)
  | withdrawn
  | cleared
  | surplus
  | dropped (c : Cause)
  | connectedEnded
deriving DecidableEq, Repr

/-- Record kinds (R148). -/
inductive RecordKind where
  | attempt | callbackLeg | callEnd
deriving DecidableEq, Repr

/-- End reasons (R148). -/
inductive EndReason where
  | callerEnd | endingTimeout
deriving DecidableEq, Repr

/-- A journal record (R148). -/
structure JournalRecord where
  kind : RecordKind
  call : Nat
  attempt : Option Nat
  radio : Option Radio
  network : Option Nat
  generation : Option Nat
  cell : Option Nat
  outcome : Option RecordOutcome
  reason : Option EndReason
  duration : Nat
  time : Nat
  gap : Nat
deriving DecidableEq, Repr

/-- The journal (R147) and the running time it keeps (R149). -/
structure Journal where
  records : List JournalRecord
  mark : Nat
  clock : Time
deriving DecidableEq, Repr

/-! ### Supply monitor (chapter 11) -/

/-- Supply conditions (R155). -/
inductive Condition where
  | normal | low | critical
deriving DecidableEq, Repr

/-- One supply line: raw and qualified level (`true` is asserted) and qualifying timer (R155). -/
structure SupplyLine where
  raw : Bool
  qualified : Bool
  timer : Option Nat
deriving DecidableEq, Repr

/-- The supply monitor (R155). -/
structure SupplyMonitor where
  lowv : SupplyLine
  critv : SupplyLine
  condition : Condition
deriving DecidableEq, Repr

/-! ### Profile, ports and notices (chapter 12) -/

/-- Silence recovery modes (R63, R168). -/
inductive Recovery where
  | resume | restart
deriving DecidableEq, Repr

/-- The four generation biases (R32). -/
structure Biases where
  b2 : Int
  b3 : Int
  b4 : Int
  b5 : Int
deriving DecidableEq, Repr

/-- The profile (R168); times in the units of its table. -/
structure Profile where
  smoothing : Nat
  fade : Nat
  lost : Nat
  relax : Nat
  biases : Biases
  exponent : Nat
  recovery : Recovery
  arrangement : Arrangement
  operate : Nat
  pause : Nat
  staggered : Bool
  stagger : Nat
  setup : Nat
  answer : Nat
  backoff : Nat
  exclusion : Nat
  window : Nat
deriving DecidableEq, Repr

/-- Notice kinds, highest priority first on the station port (R172). -/
inductive NoticeKind where
  | call | ring | route | radio | supply | table | journal | order
deriving DecidableEq, Repr

/-- A set of notice kinds (R164, R172). -/
structure NoticeSet where
  call : Bool
  ring : Bool
  route : Bool
  radio : Bool
  supply : Bool
  table : Bool
  journal : Bool
  order : Bool
deriving DecidableEq, Repr

/-- Response codes (R164). -/
inductive RespCode where
  | ok | active | idle | busy | denied | protectedCode | duplicate | range | notAnnounced | notReady | stale
  | outOfOrder | surplus | notAccepted | empty | noneCode | answered | pattern | frameError | unknownRequest
deriving DecidableEq, Repr

/-- Outcomes of one cell report (R23). -/
inductive ReportOutcome where
  | taken | tableFull | contradictory | implausible
deriving DecidableEq, Repr

/-- One entry summary of READ RANKED (R167). -/
structure Summary where
  slot : Nat
  radio : Radio
  network : Nat
  generation : Nat
  cell : Nat
  state : EntryState
  tier : Nat
  score : Nat
deriving DecidableEq, Repr

/-- One attempt as READ CALL shows it (R101). -/
structure AttemptView where
  number : Nat
  radio : Radio
  slot : Nat
  step : AttemptStep
  sinceOrdered : Nat
  disposition : Option Disposition
deriving DecidableEq, Repr

/-- The callback part as READ CALL shows it (R101, 09_callback 9.6). -/
structure CallbackView where
  length : Nat
  remaining : Nat
  counting : Bool
  held : Option Held
  offer : Option Offer
deriving DecidableEq, Repr

/-- The response fields of READ CALL (R101). -/
structure CallView where
  state : CallState
  number : Nat
  running : Option Nat
  nextAttempt : Nat
  attempts : List AttemptView
  failures : Nat
  radioFailures : PerRadio Nat
  lastFailed : Option Radio
  carrying : Option (Radio × Nat)
  everConnected : Bool
  recoveries : Nat
  backoff : Option Nat
  ending : Option Nat
  stagger : Option Nat
  route : Option Radio
  part : Option CallbackView
deriving DecidableEq, Repr

/-- The response fields of READ RADIO (R70). -/
structure RadioView where
  radio : Radio
  state : RadioState
  generations : Option GenerationSet
  identity : Option Nat
  silence : Option Nat
  start : Option Nat
  queue : List (OrderKind × Option Nat)
  counts : IntakeCounts
  failures : Nat
deriving DecidableEq, Repr

/-- One supply line as READ STATUS shows it (R162). -/
structure LineView where
  raw : Bool
  qualified : Bool
  remaining : Option Nat
deriving DecidableEq, Repr

/-- One radio's survey fields as READ STATUS shows them (R86). -/
structure SurveyView where
  state : SurveyState
  urgent : Option Bool
  window : Option Nat
  pause : Option Pause
  owed : Option Bool
deriving DecidableEq, Repr

/-- The response fields of READ STATUS (R162, R86, R174). -/
structure StatusView where
  condition : Condition
  lowv : LineView
  critv : LineView
  mode : SurveyMode
  effective : SurveyMode
  onceDone : Bool
  arrangement : Arrangement
  urgent : Bool
  operate : Nat
  pause : Nat
  operatePreload : Option Nat
  pausePreload : Option Nat
  last : Option Radio
  surveys : PerRadio SurveyView
  linkCheck : PerRadio (Option Nat)
deriving DecidableEq, Repr

/-- The fields a response carries beside its code, by the request that it answers. -/
inductive Payload where
  | none
  | patternBytes
  | notice (kind : NoticeKind) (pending : NoticeSet)
  | ranked (total : Nat) (summaries : List Summary)
  | outcomes (list : List (ReportOutcome × Bool))
  | order (o : Order)
  | call (view : CallView)
  | clamps (fields : List Nat)
  | profile (p : Profile)
  | prefWritten (index : Nat) (content : Option Preference) (clamped : Bool)
  | prefRead (index : Nat) (content : Option Preference) (locked : Bool) (lock : Option Lock)
  | prefLocked (lock : Lock) (count : Nat)
  | entry (content : Option (Entry × Option Nat))
  | radio (view : RadioView)
  | status (view : StatusView)
  | record (r : JournalRecord) (remaining : Nat)
  | mark (mark count : Nat)
deriving DecidableEq, Repr

/-- A response: its code and its fields (R164). -/
structure Response where
  code : RespCode
  payload : Payload
deriving DecidableEq, Repr

/-- One port: its select line, whether the present select period is ignored (R176), the pending response (R163), the
frame that the present select period shifts out before 0xFF, the notice sets (R172) and the attention line (R173). -/
structure PortState where
  selected : Bool
  ignoring : Bool
  response : Option Response
  shiftOut : List Byte
  pending : NoticeSet
  enabled : NoticeSet
  attention : Bool
deriving DecidableEq, Repr

/-- The state of the part, and the queue of commands that wait, first in, first out. -/
structure State where
  table : ReachTable
  prefs : Preferences
  radios : PerRadio RadioContext
  survey : Scheduler
  call : CallRecord
  journal : Journal
  supply : SupplyMonitor
  profile : Profile
  ports : PerPort PortState
  linkCheck : PerRadio (Option Nat)
  resetAsserted : Bool
  pending : List Instr
deriving DecidableEq, Repr

/-! ### Power-on values -/

/-- The reach table after either reset (R22). -/
def ReachTable.initial : ReachTable where
  slots := Vector.replicate 48 none
  silentHold := ⟨none, none⟩
  relax := 0

/-- The preference list after power-on reset (R50). -/
def Preferences.initial : Preferences where
  list := Vector.replicate 16 none
  lock := none

/-- Intake counts of 0 (R29). -/
def IntakeCounts.zero : IntakeCounts := ⟨0, 0, 0, 0, 0⟩

/-- A radio context after either reset (R52). -/
def RadioContext.initial : RadioContext where
  state := .off
  generations := none
  identity := none
  silence := none
  start := none
  queue := []
  take := none
  counts := IntakeCounts.zero

/-- The profile's defaults (R168). -/
def Profile.default : Profile where
  smoothing := 2
  fade := 10
  lost := 60
  relax := 900
  biases := ⟨0, 0, 0, 0⟩
  exponent := 12
  recovery := .resume
  arrangement := .parallel
  operate := 8
  pause := 120
  staggered := true
  stagger := 6
  setup := 20
  answer := 60
  backoff := 500
  exclusion := 20
  window := 600

/-- The survey scheduler after power-on reset (R72). -/
def Scheduler.initial : Scheduler where
  mode := .continuous
  onceDone := false
  owed := ⟨false, false⟩
  states := ⟨.due, .due⟩
  shared := none
  last := none
  urgent := false
  operate := 8
  pause := 120
  operatePreload := none
  pausePreload := none

/-- The call record, stagger and voice route after either reset (R87, R102, R122, R138). -/
def CallRecord.initial : CallRecord where
  state := .idle
  number := 0
  startTime := none
  nextAttempt := 1
  attempts := []
  failures := 0
  radioFailures := ⟨0, 0⟩
  lastFailed := none
  carrying := none
  everConnected := false
  recoveries := 0
  part := none
  note := none
  backoff := none
  ending := none
  stagger := .stopped
  route := none
  lineA := false
  lineB := false

/-- The journal after power-on reset (R147, R149). -/
def Journal.initial : Journal where
  records := []
  mark := 24
  clock := ⟨0, 0⟩

/-- A supply line after power-on reset, at the raw level it stands at (R155). -/
def SupplyLine.initial (raw : Bool) : SupplyLine where
  raw := raw
  qualified := false
  timer := if raw then some 0 else none

/-- The supply monitor after power-on reset (R155). -/
def SupplyMonitor.initial (lowv critv : Bool) : SupplyMonitor where
  lowv := SupplyLine.initial lowv
  critv := SupplyLine.initial critv
  condition := .normal

/-- No notice kind. -/
def NoticeSet.empty : NoticeSet := ⟨false, false, false, false, false, false, false, false⟩

/-- Every kind of the station port (R172). -/
def NoticeSet.station : NoticeSet := ⟨true, true, true, true, true, true, true, false⟩

/-- Every kind of a radio port (R172). -/
def NoticeSet.radioPort : NoticeSet := ⟨false, false, false, false, false, false, false, true⟩

/-- A port after power-on reset with its select line as it stands: a select period asserted at the release is ignored
(R172, R176), and its rest shifts out 0xFF (log entry 34, DESIGN CHOICE). -/
def PortState.initial (kinds : NoticeSet) (selected : Bool) : PortState where
  selected := selected
  ignoring := selected
  response := none
  shiftOut := []
  pending := NoticeSet.empty
  enabled := kinds
  attention := false

/-- The power-on values with the input lines as they stand at the release of the reset input, and the commands that
wait (R176). -/
def State.powerOn (lowv critv : Bool) (selected : PerPort Bool) (pending : List Instr) : State where
  table := ReachTable.initial
  prefs := Preferences.initial
  radios := ⟨RadioContext.initial, RadioContext.initial⟩
  survey := Scheduler.initial
  call := CallRecord.initial
  journal := Journal.initial
  supply := SupplyMonitor.initial lowv critv
  profile := Profile.default
  ports := ⟨PortState.initial .station selected.station, PortState.initial .radioPort selected.a,
    PortState.initial .radioPort selected.b⟩
  linkCheck := ⟨none, none⟩
  resetAsserted := false
  pending := pending

/-- The state right after power-on reset, with LOWV, CRITV and the three select lines deasserted
(DESIGN CHOICE, log entry 7) and no command waiting. -/
def State.reset : State := State.powerOn false false ⟨false, false, false⟩ []

end Sys2Proof.Machine
end

