-- ==== Sys2Proof/Machine/Frames.lean ====
section
/-! DEFINITION. The bytes of a response frame (R164): the code's value, then the fields in the order their description
gives them.  Where R164 leaves a choice, log entry 11 names it. -/

namespace Sys2Proof.Machine

/-- Response code values (R164). -/
def RespCode.value : RespCode → Nat
  | .ok => 0x00
  | .active => 0x01
  | .idle => 0x02
  | .busy => 0x03
  | .denied => 0x04
  | .protectedCode => 0x05
  | .duplicate => 0x06
  | .range => 0x07
  | .notAnnounced => 0x08
  | .notReady => 0x09
  | .stale => 0x0A
  | .outOfOrder => 0x0B
  | .surplus => 0x0C
  | .notAccepted => 0x0D
  | .empty => 0x0E
  | .noneCode => 0x0F
  | .answered => 0x10
  | .pattern => 0x11
  | .frameError => 0x12
  | .unknownRequest => 0x13

/-- One byte of a value. -/
def u8 (n : Nat) : List Byte := beBytes 1 n

/-- A yes-or-no field: no is 0 and yes is 1 (R164). -/
def flagByte (b : Bool) : List Byte := u8 b.toNat

/-- Asserted is 0 and deasserted 1: their positions in R155's list (R164). -/
def levelByte (b : Bool) : List Byte := u8 (if b then 0 else 1)

/-- A count of milliseconds in four bytes, saturating (R164). -/
def msBytes (n : Nat) : List Byte := beBytes 4 (min Config.maxMs n)

/-- Radio A is 0 and radio B is 1 (R164). -/
def Radio.code : Radio → Nat
  | .A => 0
  | .B => 1

def radioByte (r : Radio) : List Byte := u8 (Radio.code r)

/-- Entry states (R164). -/
def Heard.code : Heard → Nat
  | .fresh => 1
  | .steady => 2
  | .fading => 3

def EntryState.code : EntryState → Nat
  | .ranked h => h.code
  | .held _ => 4
  | .lost => 5

/-- The state an entry was held from, absent outside HELD (R1). -/
def EntryState.heldFrom : EntryState → Option Heard
  | .held h => some h
  | .ranked _ | .lost => none

/-- Radio states in the order of R52. -/
def RadioState.code : RadioState → Nat
  | .off => 0
  | .starting => 1
  | .ready => 2
  | .surveying => 3
  | .attempting => 4
  | .inCall => 5
  | .snooze => 6
  | .silent => 7
  | .fault => 8

/-- Order kinds in the order of R65. -/
def OrderKind.code : OrderKind → Nat
  | .attempt => 0
  | .cancel => 1
  | .survey => 2
  | .power => 3
  | .callback => 4

/-- CANCEL reasons in the order of R65. -/
def CancelReason.code : CancelReason → Nat
  | .callerEnd => 0
  | .surplus => 1
  | .recovery => 2
  | .endingTimeout => 3

/-- Call states in the order of R87. -/
def CallState.code : CallState → Nat
  | .idle => 0
  | .seeking => 1
  | .placing => 2
  | .backoff => 3
  | .connected => 4
  | .recovering => 5
  | .ending => 6
  | .callback => 7

/-- Attempt steps in the order of R103. -/
def AttemptStep.code : AttemptStep → Nat
  | .ordered => 0
  | .taken => 1
  | .accepted => 2
  | .alerting => 3
  | .connected => 4

/-- Dispositions in the order of R103. -/
def Disposition.code : Disposition → Nat
  | .cancel => 0
  | .surplus => 1

/-- Ring states in the order of R138. -/
def Ring.code : Ring → Nat
  | .ringing => 0
  | .answering => 1

/-- The voice route in the order of R136. -/
def routeCode : Option Radio → Nat
  | none => 0
  | some .A => 1
  | some .B => 2

/-- Causes (R164). -/
def Cause.code : Cause → Nat
  | .noService => 0
  | .rejected => 1
  | .networkBusy => 2
  | .radioFault => 3
  | .radioSilent => 4
  | .takeTimeout => 5
  | .setupTimeout => 6
  | .answerTimeout => 7

/-- Record kinds in the order of R148. -/
def RecordKind.code : RecordKind → Nat
  | .attempt => 0
  | .callbackLeg => 1
  | .callEnd => 2

/-- Outcomes in the order of R148, FAILED and DROPPED followed by their cause. -/
def RecordOutcome.bytes : RecordOutcome → List Byte
  | .failed c => u8 0 ++ u8 c.code
  | .withdrawn => u8 1
  | .cleared => u8 2
  | .surplus => u8 3
  | .dropped c => u8 4 ++ u8 c.code
  | .connectedEnded => u8 5

/-- End reasons in the order of R148. -/
def EndReason.code : EndReason → Nat
  | .callerEnd => 0
  | .endingTimeout => 1

/-- Survey modes in the order of R72. -/
def SurveyMode.code : SurveyMode → Nat
  | .off => 0
  | .once => 1
  | .continuous => 2
  | .paused => 3

/-- Arrangements in the order of R72. -/
def Arrangement.code : Arrangement → Nat
  | .parallel => 0
  | .alternate => 1

/-- Survey states in the order of R72. -/
def SurveyState.code : SurveyState → Nat
  | .waiting _ => 0
  | .due => 1
  | .ordered _ => 2
  | .running _ _ _ => 3

/-- Supply conditions in the order of R155. -/
def Condition.code : Condition → Nat
  | .normal => 0
  | .low => 1
  | .critical => 2

/-- Silence recovery modes in the order of R168. -/
def Recovery.code : Recovery → Nat
  | .resume => 0
  | .restart => 1

/-- Lock directions in the order of R48. -/
def LockDirection.code : LockDirection → Nat
  | .lower => 0
  | .upper => 1

/-- Report outcomes in the order of R23. -/
def ReportOutcome.code : ReportOutcome → Nat
  | .taken => 0
  | .tableFull => 1
  | .contradictory => 2
  | .implausible => 3

/-- Notice kinds (R164). -/
def NoticeKind.code : NoticeKind → Nat
  | .call => 0
  | .ring => 1
  | .route => 2
  | .radio => 3
  | .supply => 4
  | .table => 5
  | .journal => 6
  | .order => 7

/-- A set of notice kinds in one byte (R164). -/
def NoticeSet.value (n : NoticeSet) : Nat :=
  n.call.toNat + 2 * n.ring.toNat + 4 * n.route.toNat + 8 * n.radio.toNat + 16 * n.supply.toNat
    + 32 * n.table.toNat + 64 * n.journal.toNat + 128 * n.order.toNat

/-- A set of generations in one byte: the generation numbers are the codes (R164). -/
def GenerationSet.value (g : GenerationSet) : Nat :=
  4 * g.g2.toNat + 8 * g.g3.toNat + 16 * g.g4.toNat + 32 * g.g5.toNat

/-- An entry summary (R167). -/
def Summary.bytes (x : Summary) : List Byte :=
  u8 x.slot ++ radioByte x.radio ++ beBytes 3 x.network ++ u8 x.generation ++ beBytes 4 x.cell ++ u8 x.state.code
    ++ u8 x.tier ++ beBytes 2 x.score

/-- The fields of an order, after its kind (R65, R67).  The network code and cell identity of a CALLBACK order follow the
action HOLD with no presence byte, and ANSWER and END carry nothing for them (DESIGN CHOICE, log entry 11). -/
def Order.bytes : Order → List Byte
  | .attempt n slot net gen cell chan =>
    u8 0 ++ u8 n ++ u8 slot ++ beBytes 3 net ++ u8 gen ++ beBytes 4 cell ++ beBytes 2 chan
  | .cancel n reason => u8 1 ++ u8 n ++ u8 reason.code
  | .survey window urgent => u8 2 ++ beBytes 2 window ++ flagByte urgent
  | .power .snooze => u8 3 ++ u8 0
  | .power .wake => u8 3 ++ u8 1
  | .callback (.hold net cell) => u8 4 ++ u8 0 ++ beBytes 3 net ++ beBytes 4 cell
  | .callback .answer => u8 4 ++ u8 1
  | .callback .stop => u8 4 ++ u8 2

/-- An occupied entry's fields in the order of R1, then its rank (R21). -/
def entryBytes (e : Entry) (rank : Option Nat) : List Byte :=
  radioByte e.radio ++ beBytes 3 e.network ++ u8 e.generation ++ beBytes 4 e.cell ++ beBytes 2 e.channel
    ++ beSigned 2 e.level ++ optBytes u8 e.quality ++ u8 e.reports ++ u8 e.credit ++ u8 e.tier ++ u8 e.state.code
    ++ optBytes (fun h => u8 (Heard.code h)) e.state.heldFrom ++ msBytes e.age
    ++ optBytes (beBytes 3) e.excludedFor ++ flagByte e.pin ++ beBytes 2 e.score ++ optBytes u8 rank

/-- An attempt in READ CALL (R101). -/
def AttemptView.bytes (a : AttemptView) : List Byte :=
  u8 a.number ++ radioByte a.radio ++ u8 a.slot ++ u8 a.step.code ++ msBytes a.sinceOrdered
    ++ optBytes (fun d => u8 (Disposition.code d)) a.disposition

/-- The offer in READ CALL, its time connected in whole seconds (R138, log entry 29). -/
def Offer.bytes (o : Offer) : List Byte :=
  radioByte o.radio ++ u8 o.ring.code ++ optBytes (fun t => beBytes 4 (Time.sec t)) o.connected

/-- The callback part in READ CALL (09_callback 9.6). -/
def CallbackView.bytes (p : CallbackView) : List Byte :=
  beBytes 3 p.length ++ beBytes 3 p.remaining ++ flagByte p.counting
    ++ optBytes (fun h => radioByte (Held.radio h)) p.held ++ optBytes (fun h => beBytes 3 (Held.network h)) p.held
    ++ optBytes (fun h => u8 (Held.generation h)) p.held ++ optBytes (fun h => beBytes 4 (Held.cell h)) p.held
    ++ optBytes u8 (p.held.bind (·.slot)) ++ optBytes Offer.bytes p.offer

/-- The fields of READ CALL (R101). -/
def CallView.bytes (v : CallView) : List Byte :=
  u8 v.state.code ++ beBytes 2 v.number ++ optBytes msBytes v.running ++ u8 v.nextAttempt
    ++ listBytes AttemptView.bytes v.attempts ++ u8 v.failures ++ u8 v.radioFailures.a ++ u8 v.radioFailures.b
    ++ optBytes radioByte v.lastFailed ++ optBytes (fun x => radioByte (Prod.fst x)) v.carrying
    ++ optBytes (fun x => u8 (Prod.snd x)) v.carrying ++ flagByte v.everConnected ++ u8 v.recoveries
    ++ optBytes (beBytes 2) v.backoff ++ optBytes (beBytes 2) v.ending ++ optBytes (beBytes 2) v.stagger
    ++ u8 (routeCode v.route) ++ optBytes CallbackView.bytes v.part

/-- The profile in the order and sizes of R168. -/
def Profile.bytes (p : Profile) : List Byte :=
  u8 p.smoothing ++ u8 p.fade ++ beBytes 2 p.lost ++ beBytes 2 p.relax ++ beSigned 1 p.biases.b2
    ++ beSigned 1 p.biases.b3 ++ beSigned 1 p.biases.b4 ++ beSigned 1 p.biases.b5 ++ u8 p.exponent
    ++ u8 p.recovery.code ++ u8 p.arrangement.code ++ u8 p.operate ++ beBytes 2 p.pause ++ flagByte p.staggered
    ++ u8 p.stagger ++ u8 p.setup ++ u8 p.answer ++ beBytes 2 p.backoff ++ beBytes 2 p.exclusion
    ++ beBytes 2 p.window

/-- The intake counts in the order of R28. -/
def IntakeCounts.bytes (c : IntakeCounts) : List Byte :=
  beBytes 2 c.taken ++ beBytes 2 c.clamped ++ beBytes 2 c.contradictory ++ beBytes 2 c.implausible
    ++ beBytes 2 c.tableFull

/-- A queue item of READ RADIO: its kind, and the attempt number that an ATTEMPT or CANCEL carries (R70).  The number
follows the kind with no presence byte, and the other kinds carry nothing for it (DESIGN CHOICE, log entry 11). -/
def queueItemBytes (x : OrderKind × Option Nat) : List Byte := u8 x.1.code ++ (x.2.map u8).getD []

/-- The fields of READ RADIO (R70). -/
def RadioView.bytes (v : RadioView) : List Byte :=
  radioByte v.radio ++ u8 v.state.code ++ optBytes (fun g => u8 (GenerationSet.value g)) v.generations
    ++ optBytes (beBytes 4) v.identity ++ optBytes (beBytes 2) v.silence ++ optBytes (beBytes 2) v.start
    ++ listBytes queueItemBytes v.queue ++ v.counts.bytes ++ u8 v.failures

/-- A supply line in READ STATUS (R162). -/
def LineView.bytes (v : LineView) : List Byte :=
  levelByte v.raw ++ levelByte v.qualified ++ optBytes (beBytes 2) v.remaining

/-- A radio's survey fields in READ STATUS (R86). -/
def SurveyView.bytes (v : SurveyView) : List Byte :=
  u8 v.state.code ++ optBytes flagByte v.urgent ++ optBytes (beBytes 2) v.window
    ++ optBytes (fun p => beBytes 3 (Pause.remaining p)) v.pause ++ optBytes (fun p => flagByte (Pause.held p)) v.pause
    ++ optBytes flagByte v.owed

/-- A port's link-check mode, and the time left when it is on (R174). -/
def linkBytes (x : Option Nat) : List Byte := flagByte x.isSome ++ optBytes (beBytes 2) x

/-- The fields of READ STATUS: identity, revision, supply, surveys, link checks (R174). -/
def StatusView.bytes (v : StatusView) : List Byte :=
  beBytes 2 Config.partIdentity ++ u8 Config.siliconRevision ++ u8 v.condition.code ++ v.lowv.bytes ++ v.critv.bytes
    ++ u8 v.mode.code ++ u8 v.effective.code ++ flagByte v.onceDone ++ u8 v.arrangement.code
    ++ u8 (if v.urgent then 0 else 1) ++ u8 v.operate ++ beBytes 2 v.pause ++ optBytes u8 v.operatePreload
    ++ optBytes (beBytes 2) v.pausePreload ++ optBytes radioByte v.last ++ v.surveys.a.bytes ++ v.surveys.b.bytes
    ++ linkBytes v.linkCheck.a ++ linkBytes v.linkCheck.b

/-- A journal record's fields in the order of R148. -/
def JournalRecord.bytes (r : JournalRecord) : List Byte :=
  u8 r.kind.code ++ beBytes 2 r.call ++ optBytes u8 r.attempt ++ optBytes radioByte r.radio
    ++ optBytes (beBytes 3) r.network ++ optBytes u8 r.generation ++ optBytes (beBytes 4) r.cell
    ++ optBytes RecordOutcome.bytes r.outcome ++ optBytes (fun x => u8 (EndReason.code x)) r.reason
    ++ msBytes r.duration ++ beBytes 4 r.time ++ u8 r.gap

/-- The content of a preference index: empty, or the code and the tier (R43, R48). -/
def contentBytes (x : Option Preference) : List Byte := optBytes (fun c => beBytes 3 (Preference.code c) ++ u8 c.tier) x

/-- The eight bytes of link-check mode (R171). -/
def pattern : List Byte := [0x55#8, 0xAA#8, 0x0F#8, 0xF0#8, 0x33#8, 0xCC#8, 0x00#8, 0xFF#8]

/-- The fields of a response. -/
def Payload.bytes : Payload → List Byte
  | .none => []
  | .patternBytes => pattern
  | .notice k p => u8 k.code ++ u8 p.value
  | .ranked total l => u8 total ++ listBytes Summary.bytes l
  | .outcomes l => listBytes (fun x => u8 x.1.code ++ flagByte x.2) l
  | .order o => o.bytes
  | .call v => v.bytes
  | .clamps l => listBytes u8 l
  | .profile p => p.bytes
  | .prefWritten i c clamped => u8 i ++ contentBytes c ++ flagByte clamped
  | .prefRead i c locked lock =>
    u8 i ++ contentBytes c ++ flagByte locked ++ flagByte lock.isSome ++ optBytes (fun l => u8 (Lock.boundary l)) lock
      ++ optBytes (fun l => u8 (Lock.direction l).code) lock
  | .prefLocked l n => u8 l.boundary ++ u8 l.direction.code ++ u8 n
  | .entry Option.none => u8 0
  | .entry (Option.some (e, rank)) => entryBytes e rank
  | .radio v => v.bytes
  | .status v => v.bytes
  | .record r remaining => r.bytes ++ u8 remaining
  | .mark m n => u8 m ++ u8 n

/-- The frame of a response (R164). -/
def Response.frame (x : Response) : List Byte := frameOf x.code.value x.payload.bytes

/-- The empty response, shifted out when nothing is pending (R163). -/
def emptyResponse : Response := ⟨.noneCode, .none⟩

end Sys2Proof.Machine
end

