-- ==== Sys2Proof/Machine/Operands.lean ====
section
/-! DEFINITION. The named values that the bytes of a request code (R164): a byte that codes no value of its field gives
`none`, and the meaning handles it as the field's description states. -/

namespace Sys2Proof.Machine

/-- Radio A is 0 and radio B is 1 (R164). -/
def radioOf : Nat → Option Radio
  | 0 => some .A
  | 1 => some .B
  | _ => none

/-- No is 0 and yes is 1; off is 0 and on is 1 (R164). -/
def flagOf : Nat → Option Bool
  | 0 => some false
  | 1 => some true
  | _ => none

/-- Survey modes in the order of R72. -/
def surveyModeOf : Nat → Option SurveyMode
  | 0 => some .off
  | 1 => some .once
  | 2 => some .continuous
  | 3 => some .paused
  | _ => none

/-- Lock directions in the order of R48. -/
def lockDirectionOf : Nat → Option LockDirection
  | 0 => some .lower
  | 1 => some .upper
  | _ => none

/-- Silence recovery modes in the order of R168. -/
def recoveryOf : Nat → Option Recovery
  | 0 => some .resume
  | 1 => some .restart
  | _ => none

/-- Arrangements in the order of R72. -/
def arrangementOf : Nat → Option Arrangement
  | 0 => some .parallel
  | 1 => some .alternate
  | _ => none

/-- Orders of READ RANKED (R167). -/
inductive ReadOrder where
  | rank | alternate
deriving DecidableEq, Repr

/-- Orders of READ RANKED in the order of R167. -/
def readOrderOf : Nat → Option ReadOrder
  | 0 => some .rank
  | 1 => some .alternate
  | _ => none

/-- PROGRESS kinds (07_attempts 7.3). -/
inductive ProgressKind where
  | accepted | alerting | connected | failed | dropped | cleared
deriving DecidableEq, Repr

/-- PROGRESS kinds in the order of 07_attempts 7.3 (R164). -/
def progressKindOf : Nat → Option ProgressKind
  | 0 => some .accepted
  | 1 => some .alerting
  | 2 => some .connected
  | 3 => some .failed
  | 4 => some .dropped
  | 5 => some .cleared
  | _ => none

/-- The causes that a radio may report; the part's own causes are outside the field's values (R106). -/
def reportedCauseOf : Nat → Option Cause
  | 0 => some .noService
  | 1 => some .rejected
  | 2 => some .networkBusy
  | 3 => some .radioFault
  | _ => none

/-- A PROGRESS report that passes step 1 of R106: the cause is looked at for FAILED and DROPPED alone. -/
inductive Report where
  | accepted | alerting | connected | cleared
  | failed (c : Cause)
  | dropped (c : Cause)
deriving DecidableEq, Repr

/-- Step 1 of R106. -/
def reportOf (kind cause : Nat) : Option Report :=
  match progressKindOf kind with
  | some .accepted => some .accepted
  | some .alerting => some .alerting
  | some .connected => some .connected
  | some .cleared => some .cleared
  | some .failed => (reportedCauseOf cause).map .failed
  | some .dropped => (reportedCauseOf cause).map .dropped
  | none => none

/-- The notice kinds that a set byte names (R164: the bit of value 2 to the power c is the kind coded c). -/
def noticeSetOf (n : Nat) : NoticeSet :=
  ⟨n.testBit 0, n.testBit 1, n.testBit 2, n.testBit 3, n.testBit 4, n.testBit 5, n.testBit 6, n.testBit 7⟩

/-- The generations that the list of ANNOUNCE names; a repeated value is recorded once (R57). -/
def generationSetOf (l : List Nat) : GenerationSet :=
  ⟨l.contains 2, l.contains 3, l.contains 4, l.contains 5⟩

/-- ANNOUNCE's list holds 1 to 4 values, each 2 to 5 (R57). -/
def announceValid (l : List Nat) : Bool := 1 ≤ l.length && l.length ≤ 4 && l.all (fun g => 2 ≤ g && g ≤ 5)

/-- A generation is in the announced set (R24). -/
def GenerationSet.has (g : GenerationSet) (n : Nat) : Bool :=
  match n with
  | 2 => g.g2
  | 3 => g.g3
  | 4 => g.g4
  | 5 => g.g5
  | _ => false

/-- A numeric profile field clamped to its range, with whether the clamp changed it (R168). -/
def clampNat (lo hi x : Nat) : Nat := min hi (max lo x)

/-- A generation bias clamped to its range (R168). -/
def clampBias (x : Int) : Int := min 63 (max (-64) x)

/-- The least lost time in s that a fade time allows (R168). -/
def clampLost (fade lost : Nat) : Nat := max (clampNat 10 600 lost) (fade + 1)

/-- The profile that SET PROFILE's fields give, each numeric field clamped, when the three named-value fields hold
defined values; `none` is the answer RANGE (R168). -/
def profileOf (f : ProfileFields) : Option Profile :=
  match recoveryOf f.recovery, arrangementOf f.arrangement, flagOf f.dual with
  | some recovery, some arrangement, some staggered =>
    let fade := clampNat 2 60 f.fade
    some {
      smoothing := clampNat 0 6 f.smoothing
      fade := fade
      lost := clampLost fade f.lost
      relax := clampNat 60 3600 f.relax
      biases := ⟨clampBias f.bias2, clampBias f.bias3, clampBias f.bias4, clampBias f.bias5⟩
      exponent := clampNat 8 15 f.exponent
      recovery := recovery
      arrangement := arrangement
      operate := clampNat 1 60 f.operate
      pause := clampNat 5 3600 f.pause
      staggered := staggered
      stagger := clampNat 2 30 f.stagger
      setup := clampNat 5 60 f.setup
      answer := clampNat 10 180 f.answer
      backoff := clampNat 0 5000 f.backoff
      exclusion := clampNat 0 300 f.exclusion
      window := clampNat 0 3600 f.window }
  | _, _, _ => none

/-- The fields whose taken value differs from the value carried, by position in the order SET PROFILE carries them,
each bias a field of its own (R164, R168). -/
def clampedFields (f : ProfileFields) (p : Profile) : List Nat :=
  let changed : List (Nat × Bool) := [
    (0, p.smoothing != f.smoothing), (1, p.fade != f.fade), (2, p.lost != f.lost), (3, p.relax != f.relax),
    (4, p.biases.b2 != f.bias2), (5, p.biases.b3 != f.bias3), (6, p.biases.b4 != f.bias4),
    (7, p.biases.b5 != f.bias5), (8, p.exponent != f.exponent), (11, p.operate != f.operate),
    (12, p.pause != f.pause), (14, p.stagger != f.stagger), (15, p.setup != f.setup), (16, p.answer != f.answer),
    (17, p.backoff != f.backoff), (18, p.exclusion != f.exclusion), (19, p.window != f.window)]
  (changed.filter (·.2)).map (·.1)

end Sys2Proof.Machine
end

