-- ==== Sys2Proof/Machine/Flags.lean ====
section
/-! DEFINITION. The notice unit: the pending and enable sets of each port and the three attention lines (R172, R173). -/

namespace Sys2Proof.Machine

/-- The kind is in the set. -/
def NoticeSet.has (n : NoticeSet) : NoticeKind → Bool
  | .call => n.call
  | .ring => n.ring
  | .route => n.route
  | .radio => n.radio
  | .supply => n.supply
  | .table => n.table
  | .journal => n.journal
  | .order => n.order

/-- The set with the kind in it, or out of it. -/
def NoticeSet.put (n : NoticeSet) (k : NoticeKind) (v : Bool) : NoticeSet :=
  match k with
  | .call => { n with call := v }
  | .ring => { n with ring := v }
  | .route => { n with route := v }
  | .radio => { n with radio := v }
  | .supply => { n with supply := v }
  | .table => { n with table := v }
  | .journal => { n with journal := v }
  | .order => { n with order := v }

/-- The kinds of the station port, highest priority first, then ORDER of the radio ports (R172). -/
def noticeOrder : List NoticeKind := [.call, .ring, .route, .radio, .supply, .table, .journal, .order]

/-- JOURNAL and ORDER are condition kinds; the others are event kinds (R172). -/
def NoticeKind.isCondition : NoticeKind → Bool
  | .journal | .order => true
  | .call | .ring | .route | .radio | .supply | .table => false

/-- The kinds of a port (R172). -/
def portKinds : Port → NoticeSet
  | .station => .station
  | .radio _ => .radioPort

/-- Every kind of the first set is in the second. -/
def NoticeSet.within (n m : NoticeSet) : Bool := noticeOrder.all fun k => !n.has k || m.has k

/-- The state of a port. -/
def State.port (s : State) : Port → PortState
  | .station => s.ports.station
  | .radio .A => s.ports.a
  | .radio .B => s.ports.b

/-- The state with a port changed. -/
def State.mapPort (s : State) (p : Port) (f : PortState → PortState) : State :=
  match p with
  | .station => { s with ports := { s.ports with station := f s.ports.station } }
  | .radio .A => { s with ports := { s.ports with a := f s.ports.a } }
  | .radio .B => { s with ports := { s.ports with b := f s.ports.b } }

/-- The kind joins, or leaves, a port's pending set: an event kind is posted, a condition begins or ends (R172). -/
def State.setNotice (s : State) (p : Port) (k : NoticeKind) (v : Bool) : State :=
  s.mapPort p fun x => { x with pending := x.pending.put k v }

/-- An event kind is posted to the station; a kind already pending stays pending once (R172). -/
def State.post (s : State) (k : NoticeKind) : State := s.setNotice .station k true

/-- The kind of highest priority that is both pending and enabled (R172). -/
def PortState.nextNotice (x : PortState) : Option NoticeKind :=
  noticeOrder.find? fun k => x.pending.has k && x.enabled.has k

/-- READ NOTICE on a port: the kind returned, an event kind leaving the pending set, and the set as it then stands
(R172). -/
def State.takeNotice (s : State) (p : Port) : State × Response :=
  match (s.port p).nextNotice with
  | none => (s, ⟨.noneCode, .none⟩)
  | some k =>
    let s := if k.isCondition then s else s.setNotice p k false
    (s, ⟨.ok, .notice k (s.port p).pending⟩)

/-- SET NOTICE ENABLES on a port (R172). -/
def State.enableNotices (s : State) (p : Port) (kinds : Nat) : State × Response :=
  if (noticeSetOf kinds).within (portKinds p) then
    (s.mapPort p fun x => { x with enabled := noticeSetOf kinds }, ⟨.ok, .none⟩)
  else (s, ⟨.range, .none⟩)

/-- A port's attention line: it follows the pending and enabled kinds while select is deasserted, and keeps its level
while select is asserted (R173). -/
def PortState.follow (x : PortState) : PortState :=
  if x.selected then x else { x with attention := x.nextNotice.isSome }

/-- The three attention lines follow; while the reset input is asserted they are deasserted (R173, R176). -/
def State.followLines (s : State) : State :=
  if s.resetAsserted then s
  else { s with ports := ⟨s.ports.station.follow, s.ports.a.follow, s.ports.b.follow⟩ }

end Sys2Proof.Machine
end

