-- ==== Sys2Proof/Machine/Ops.lean ====
section
/-! DEFINITION. The named operations that every block shares: reading and changing one radio's part of the state, the
order queues (R65), the running time (R149) and the journal's store (R147 to R153). -/

namespace Sys2Proof.Machine

/-! ### One radio's part -/

/-- The radio that is not this one. -/
def otherRadio : Radio → Radio
  | .A => .B
  | .B => .A

/-- Both radios, A first. -/
def bothRadios : List Radio := [.A, .B]

/-- One radio's value. -/
def PerRadio.get {α : Type} (x : PerRadio α) : Radio → α
  | .A => x.a
  | .B => x.b

/-- The pair with one radio's value replaced. -/
def PerRadio.set {α : Type} (x : PerRadio α) (r : Radio) (v : α) : PerRadio α :=
  match r with
  | .A => { x with a := v }
  | .B => { x with b := v }

/-- The context of a radio (R52). -/
def State.radio (s : State) (r : Radio) : RadioContext := s.radios.get r

/-- The state with a radio's context changed. -/
def State.mapRadio (s : State) (r : Radio) (f : RadioContext → RadioContext) : State :=
  { s with radios := s.radios.set r (f (s.radios.get r)) }

/-- The state with the call record changed. -/
def State.mapCall (s : State) (f : CallRecord → CallRecord) : State := { s with call := f s.call }

/-- The state with the scheduler changed. -/
def State.mapSurvey (s : State) (f : Scheduler → Scheduler) : State := { s with survey := f s.survey }

/-- The working states, in which the silence timer runs (R61). -/
def RadioState.isWorking : RadioState → Bool
  | .ready | .surveying | .attempting | .inCall => true
  | .off | .starting | .snooze | .silent | .fault => false

/-- The states whose entries selection may choose and whose entries count as available (R20, R92). -/
def RadioState.isOpen : RadioState → Bool
  | .ready | .surveying => true
  | .off | .starting | .attempting | .inCall | .snooze | .silent | .fault => false

/-- The radio is READY or SURVEYING. -/
def State.radioOpen (s : State) (r : Radio) : Bool := (s.radio r).state.isOpen

/-- The radio is READY. -/
def State.radioReady (s : State) (r : Radio) : Bool := (s.radio r).state == .ready

/-- The silence time of a profile, in ms (R61). -/
def Profile.silenceTime (p : Profile) : Nat := 2 ^ p.exponent

/-! ### Saturation -/

/-- A count raised by one that saturates (00_scope 4.2). -/
def satSucc (top n : Nat) : Nat := if n < top then n + 1 else n

/-! ### Order queues (R65) -/

/-- The kind of an order (R65). -/
def Order.kind : Order → OrderKind
  | .attempt .. => .attempt
  | .cancel .. => .cancel
  | .survey .. => .survey
  | .power .. => .power
  | .callback .. => .callback

/-- A radio's queue replaced; ORDER is pending on its port while the queue is not empty (R65). -/
def State.setQueue (s : State) (r : Radio) (q : List Order) : State :=
  (s.mapRadio r fun c => { c with queue := q }).setNotice (.radio r) .order !q.isEmpty

/-- The queue without the orders of a kind. -/
def dropKind (k : OrderKind) (q : List Order) : List Order := q.filter fun o => o.kind != k

/-- The queue holds an order of the kind. -/
def State.hasOrder (s : State) (r : Radio) (k : OrderKind) : Bool := (s.radio r).queue.any fun o => o.kind == k

/-- The queue holds a POWER SNOOZE order. -/
def State.hasSnooze (s : State) (r : Radio) : Bool := (s.radio r).queue.contains (.power .snooze)

/-- The queue holds the ATTEMPT order of an attempt. -/
def State.hasAttemptOrder (s : State) (r : Radio) (number : Nat) : Bool :=
  (s.radio r).queue.any fun o => match o with
    | .attempt n _ _ _ _ _ => n == number
    | .cancel _ _ | .survey _ _ | .power _ | .callback _ => false

/-- The queue holds the CANCEL order of an attempt. -/
def State.hasCancelOrder (s : State) (r : Radio) (number : Nat) : Bool :=
  (s.radio r).queue.any fun o => match o with
    | .cancel n _ => n == number
    | .attempt _ _ _ _ _ _ | .survey _ _ | .power _ | .callback _ => false

/-- The queue holds a CALLBACK END order. -/
def State.hasCallbackEnd (s : State) (r : Radio) : Bool := (s.radio r).queue.contains (.callback .stop)

/-- An order arrives in a queue: it replaces an order of its kind and stands at the tail; for a radio in OFF or FAULT
it is discarded (R65). -/
def State.enqueue (s : State) (r : Radio) (o : Order) : State :=
  match (s.radio r).state with
  | .off | .fault => s
  | .starting | .ready | .surveying | .attempting | .inCall | .snooze | .silent =>
    s.setQueue r (dropKind o.kind (s.radio r).queue ++ [o])

/-- The orders of a kind leave a queue. -/
def State.dropOrders (s : State) (r : Radio) (k : OrderKind) : State := s.setQueue r (dropKind k (s.radio r).queue)

/-- The ATTEMPT order of an attempt that has ended leaves the queue, and the take deadline stops (R68). -/
def State.dropAttemptOrder (s : State) (r : Radio) (number : Nat) : State :=
  if s.hasAttemptOrder r number then
    (s.dropOrders r .attempt).mapRadio r fun c => { c with take := none }
  else s

/-- A queued POWER SNOOZE order leaves the queue (R66). -/
def State.dropSnooze (s : State) (r : Radio) : State :=
  if s.hasSnooze r then s.dropOrders r .power else s

/-! ### Running time (R149) -/

/-- Milliseconds of a running time. -/
def Time.total (t : Time) : Nat := t.sec * 1000 + t.ms

/-- The running time one millisecond later; the seconds wrap to 0 (R149). -/
def Time.next (t : Time) : Time :=
  if t.ms + 1 < 1000 then { t with ms := t.ms + 1 }
  else ⟨if t.sec + 1 < Config.runningWrap then t.sec + 1 else 0, 0⟩

/-- The running time now. -/
def State.now (s : State) : Time := s.journal.clock

/-- Milliseconds from a running time to now, saturating (R148; a wrap between the two is allowed for, log entry 23). -/
def State.since (s : State) (t : Time) : Nat :=
  let wrap := Config.runningWrap * 1000
  min Config.maxMs ((s.now.total + wrap - t.total % wrap) % wrap)

/-! ### The journal's store -/

/-- The JOURNAL condition is tested, and JOURNAL is pending exactly while it holds (R153). -/
def State.testJournal (s : State) : State :=
  s.setNotice .station .journal (decide (s.journal.mark ≤ s.journal.records.length))

/-- The list of records after a write: at the tail, or, when the list is full, over the oldest, whose gap passes to
the record that is then the oldest, raised by one (R150). -/
def journalAppend (l : List JournalRecord) (x : JournalRecord) : List JournalRecord :=
  if l.length < Config.journalSize then l ++ [x]
  else match l with
    | [] => [x]
    | [_] => [x]
    | g :: y :: rest => { y with gap := satSucc 255 g.gap } :: rest ++ [x]

/-- A record is written with the running time and gap 0 (R149, R150). -/
def State.writeRecord (s : State) (x : JournalRecord) : State :=
  let x := { x with time := s.now.sec, gap := 0 }
  ({ s with journal := { s.journal with records := journalAppend s.journal.records x } } : State).testJournal

end Sys2Proof.Machine
end

