-- ==== Sys2Proof/Machine/Table.lean ====
section
/-! DEFINITION. The reach table: slots, scores, the ranked list, age thresholds, and the events that other blocks send
it (chapters 1 and 2). -/

namespace Sys2Proof.Machine

/-! ### Slots -/

/-- The entry of a slot; a FREE slot and a number above 47 have none. -/
def slotAt (t : Slots) (i : Nat) : Option Entry := t.toList[i]?.join

/-- The slots with one slot's content replaced. -/
def putSlot (t : Slots) (i : Nat) (x : Option Entry) : Slots := if h : i < 48 then t.set i x h else t

/-- The slots with every occupied entry changed, or freed. -/
def mapEntries (t : Slots) (f : Entry → Option Entry) : Slots := ⟨(t.toList.map (·.bind f)).toArray, by simp⟩

/-- The occupied slots in slot order. -/
def occupiedSlots (t : Slots) : List (Nat × Entry) := t.toList.zipIdx.filterMap fun x => x.1.map (x.2, ·)

/-- The lowest-numbered FREE slot (R3). -/
def freeSlot (t : Slots) : Option Nat := t.toList.findIdx? Option.isNone

/-- The occupied count (R18). -/
def occupiedCount (t : Slots) : Nat := t.toList.countP Option.isSome

/-- The pinned count (R18). -/
def pinnedCount (t : Slots) : Nat := t.toList.countP fun x => x.any (·.pin)

/-- The entry of a slot in a state. -/
def State.entry (s : State) (i : Nat) : Option Entry := slotAt s.table.slots i

/-! ### Scores (R32, R33) -/

/-- The profile's bias for a generation (R32). -/
def Biases.forGeneration (b : Biases) : Nat → Int
  | 2 => b.b2
  | 3 => b.b3
  | 4 => b.b4
  | 5 => b.b5
  | _ => 0

/-- The fading penalty F (R32). -/
def fadingPenalty : EntryState → Int
  | .ranked .fading => 128
  | .ranked .fresh | .ranked .steady | .held _ | .lost => 0

/-- The quality term Qs (R32). -/
def qualityTerm : Option Nat → Int
  | some q => 8 * q
  | none => 96

/-- The score of an entry from its fields as they stand (R32, R33). -/
def scoreOf (b : Biases) (e : Entry) : Nat :=
  let sum : Int := (e.level + 2240) / 4 + qualityTerm e.quality + 16 * e.credit + 32 * e.tier
    + b.forGeneration e.generation - fadingPenalty e.state
  (min 1023 (max 0 sum)).toNat

/-- The entry is in the ranked list (R19). -/
def Entry.isRanked (e : Entry) : Bool :=
  match e.state with
  | .ranked _ => true
  | .held _ | .lost => false

/-- The score of a ranked entry computed anew; a HELD or LOST entry keeps its last score (R34, R35). -/
def Entry.rescore (b : Biases) (e : Entry) : Entry := if e.isRanked then { e with score := scoreOf b e } else e

/-- The entry in a ranked state, with the score that its fields then give (R34). -/
def Entry.enterRanked (b : Biases) (e : Entry) (h : Heard) : Entry :=
  ({ e with state := .ranked h } : Entry).rescore b

/-! ### The ranked list (R19) -/

/-- The first slot stands before the second: higher score, then higher tier, then lower slot (R19). -/
def ranksBefore (x y : Nat × Entry) : Bool :=
  y.2.score < x.2.score
    || (x.2.score == y.2.score && (y.2.tier < x.2.tier || (x.2.tier == y.2.tier && x.1 < y.1)))

/-- An entry takes its place in a ranked list. -/
def insertRanked (x : Nat × Entry) : List (Nat × Entry) → List (Nat × Entry)
  | [] => [x]
  | y :: rest => if ranksBefore x y then x :: y :: rest else y :: insertRanked x rest

/-- The ranked list: each FRESH, STEADY or FADING entry once, with its slot, in order (R19). -/
def rankedList (t : Slots) : List (Nat × Entry) :=
  ((occupiedSlots t).filter (·.2.isRanked)).foldr insertRanked []

/-- The ranked list of a state. -/
def State.ranked (s : State) : List (Nat × Entry) := rankedList s.table.slots

/-- The rank of a slot, counted from 0 (R19). -/
def State.rankOf (s : State) (i : Nat) : Option Nat := s.ranked.findIdx? fun x => x.1 == i

/-- A radio's entries in the ranked list (R160). -/
def State.rankedCount (s : State) (r : Radio) : Nat :=
  s.table.slots.toList.countP fun x => x.any fun e => e.isRanked && e.radio == r

/-- The available count: ranked, radio READY or SURVEYING, not excluded (R20). -/
def State.available (s : State) : Nat :=
  s.table.slots.toList.countP fun x => x.any fun e => e.isRanked && s.radioOpen e.radio && e.excludedFor.isNone

/-- TABLE is posted when a change has taken the available count from 0 to above 0 or back (R20). -/
def noteTable (before after : State) : State :=
  if (before.available == 0) == (after.available == 0) then after else after.post .table

/-- The slots are changed, in one change of the table (R19, R20). -/
def State.setSlots (s : State) (t : Slots) : State := noteTable s { s with table := { s.table with slots := t } }

/-- Every occupied entry is changed, or freed, in one change of the table. -/
def State.mapTable (s : State) (f : Entry → Option Entry) : State := s.setSlots (mapEntries s.table.slots f)

/-- The entry of one slot is changed, or freed; a FREE slot is left. -/
def State.mapSlot (s : State) (i : Nat) (f : Entry → Option Entry) : State :=
  match s.entry i with
  | some e => s.setSlots (putSlot s.table.slots i (f e))
  | none => s

/-! ### Age thresholds (R5 to R7) -/

/-- The fade time, the lost time and four times the lost time, in ms (R5). -/
def Profile.fadeMs (p : Profile) : Nat := p.fade * 1000
def Profile.lostMs (p : Profile) : Nat := p.lost * 1000
def Profile.releaseMs (p : Profile) : Nat := 4 * p.lostMs

/-- A FRESH or STEADY entry whose age reaches the fade time becomes FADING (R6). -/
def Entry.fadeStep (p : Profile) (e : Entry) : Entry :=
  if e.pin || e.age < p.fadeMs then e
  else match e.state with
    | .ranked .fresh | .ranked .steady => e.enterRanked p.biases .fading
    | .ranked .fading | .held _ | .lost => e

/-- A FADING entry whose age reaches the lost time becomes LOST, keeping its score (R6). -/
def Entry.lostStep (p : Profile) (e : Entry) : Entry :=
  if e.pin || e.age < p.lostMs then e
  else match e.state with
    | .ranked .fading => { e with state := .lost }
    | .ranked .fresh | .ranked .steady | .held _ | .lost => e

/-- A LOST entry whose age reaches four times the lost time is released (R7). -/
def Entry.releaseStep (p : Profile) (e : Entry) : Option Entry :=
  if e.pin || e.age < p.releaseMs then some e
  else match e.state with
    | .lost => none
    | .ranked _ | .held _ => some e

/-- Every threshold found reached is acted on at once, in turn (R5). -/
def Entry.thresholds (p : Profile) (e : Entry) : Option Entry := ((e.fadeStep p).lostStep p).releaseStep p

/-- The entry becomes LOST by a cause other than its age: its age is raised to the lost time if below it (R7). -/
def Entry.becomeLost (p : Profile) (e : Entry) : Entry := { e with state := .lost, age := max e.age p.lostMs }

/-! ### Holds, returns and restarts (R8 to R11) -/

/-- A ranked entry becomes HELD (R8). -/
def Entry.hold (e : Entry) : Entry :=
  match e.state with
  | .ranked h => { e with state := .held h }
  | .held _ | .lost => e

/-- A HELD entry returns to its held-from state, its score computed (R9). -/
def Entry.unhold (b : Biases) (e : Entry) : Entry :=
  match e.state with
  | .held h => e.enterRanked b h
  | .ranked _ | .lost => e

/-- A radio's silent-hold time is changed. -/
def State.setSilentHold (s : State) (r : Radio) (v : Option Nat) : State :=
  { s with table := { s.table with silentHold := s.table.silentHold.set r v } }

/-- A radio has entered SILENT, SNOOZE or FAULT: its ranked entries become HELD (R8). -/
def State.holdEntries (s : State) (r : Radio) : State :=
  s.mapTable fun e => some (if e.radio = r then e.hold else e)

/-- A radio has entered READY: its HELD entries return, and their ages are compared at once (R9). -/
def State.returnEntries (s : State) (r : Radio) : State :=
  s.mapTable fun e =>
    if e.radio = r then
      match e.state with
      | .held _ => (e.unhold s.profile.biases).thresholds s.profile
      | .ranked _ | .lost => some e
    else some e

/-- A radio has restarted: its pins are removed, then its occupied entries become LOST; its silent-hold time stops
(R11). -/
def State.restartEntries (s : State) (r : Radio) : State :=
  let p := s.profile
  (s.mapTable fun e =>
    if e.radio = r then (({ e with pin := false } : Entry).becomeLost p).thresholds p else some e).setSilentHold r none

/-- The silent-hold time of a radio has reached the lost time: its unpinned HELD entries become LOST, and the time
stops (R10). -/
def State.silentHoldReached (s : State) (r : Radio) : State :=
  let p := s.profile
  (s.mapTable fun e =>
    match e.state with
    | .held _ => if e.radio = r ∧ e.pin = false then (e.becomeLost p).thresholds p else some e
    | .ranked _ | .lost => some e).setSilentHold r none

/-- Each silent-hold time that stands at or above the lost time is acted on (R10). -/
def State.testSilentHold (s : State) (r : Radio) : State :=
  match s.table.silentHold.get r with
  | some t => if s.profile.lostMs ≤ t then s.silentHoldReached r else s
  | none => s

/-! ### Pins, exclusions and credit (R13, R14, R16, R36) -/

/-- A pin event (R13). -/
def State.pinSlot (s : State) (i : Nat) : State := s.mapSlot i fun e => some { e with pin := true }

/-- An unpin event: the age resumes and is compared with the thresholds at once (R13). -/
def State.unpinSlot (s : State) (i : Nat) : State :=
  s.mapSlot i fun e => if e.pin then ({ e with pin := false } : Entry).thresholds s.profile else some e

/-- An exclude event (R14). -/
def State.excludeSlot (s : State) (i : Nat) : State :=
  let t := s.profile.exclusion * 1000
  s.mapSlot i fun e => some { e with excludedFor := if t = 0 then none else some t }

/-- A clear-exclusions event: no candidate event is sent for it (R14). -/
def State.clearExclusions (s : State) : State := s.mapTable fun e => some { e with excludedFor := none }

/-- Outcomes that the call controller sends (R36). -/
inductive OutcomeEvent where
  | connected
  | failed (c : Cause)
  | noBlame
  | dropped (c : Cause)
deriving DecidableEq, Repr

/-- The credit change of an outcome (R36); WITHDRAWN, SURPLUS and CLEARED are `noBlame`. -/
def creditChange : OutcomeEvent → Int
  | .connected => 2
  | .failed .noService | .failed .rejected | .failed .networkBusy => -4
  | .failed .setupTimeout | .failed .answerTimeout => -2
  | .failed .radioFault | .failed .radioSilent | .failed .takeTimeout => 0
  | .noBlame => 0
  | .dropped .radioFault | .dropped .radioSilent => 0
  | .dropped .noService | .dropped .rejected | .dropped .networkBusy
  | .dropped .takeTimeout | .dropped .setupTimeout | .dropped .answerTimeout => -3

/-- A credit changed, saturating at 0 and 15 (R36). -/
def addCredit (credit : Nat) (d : Int) : Nat := (min 15 (max 0 ((credit : Int) + d))).toNat

/-- An outcome event: the credit changes, and a ranked entry is scored anew; a change of 0 does nothing (R36, R37). -/
def State.outcomeEvent (s : State) (i : Nat) (o : OutcomeEvent) : State :=
  if creditChange o = 0 then s
  else s.mapSlot i fun e =>
    some (({ e with credit := addCredit e.credit (creditChange o) } : Entry).rescore s.profile.biases)

/-- One step of credit toward 8 (R16). -/
def relaxCredit (c : Nat) : Nat :=
  if Config.creditRest < c then c - 1 else if c < Config.creditRest then c + 1 else c

/-- The credit-relax timer has expired: every credit moves one step, and the timer restarts (R16). -/
def State.relaxCredits (s : State) : State :=
  let s := s.mapTable fun e =>
    let c := relaxCredit e.credit
    some (if c = e.credit then e else ({ e with credit := c } : Entry).rescore s.profile.biases)
  { s with table := { s.table with relax := 0 } }

/-! ### Tiers, profile changes and retention (R12, R17, R38, R46) -/

/-- A tier event (R46): an entry of the code takes the tier, and a ranked entry whose tier changes is scored anew. -/
def Entry.setTier (b : Biases) (e : Entry) (code tier : Nat) : Entry :=
  if e.network = code ∧ e.tier ≠ tier then ({ e with tier := tier } : Entry).rescore b else e

/-- Tier events applied together, before any other event (R46). -/
def State.tierEvents (s : State) (l : List Preference) : State :=
  s.mapTable fun e => some (l.foldl (fun e x => e.setTier s.profile.biases x.code x.tier) e)

/-- The entries meet a profile just taken: thresholds for the unpinned ones that are not HELD, and new scores for the
ranked ones of a generation whose bias has changed (R12, R38).  The thresholds come first: a FADING entry that they make
LOST keeps the score of the old bias (DESIGN CHOICE, log entry 31). -/
def State.retakeProfile (s : State) (old : Biases) : State :=
  let p := s.profile
  s.mapTable fun e =>
    (e.thresholds p).map fun e =>
      if old.forGeneration e.generation = p.biases.forGeneration e.generation then e else e.rescore p.biases

/-- CRITICAL retention: ranks 0 to 7 and pinned entries are kept, every other occupied entry is freed (R17). -/
def State.retain (s : State) : State :=
  let kept := (s.ranked.take Config.criticalKeep).map (·.1)
  let slots := s.table.slots
  s.setSlots ⟨(slots.toList.mapIdx fun i x => x.filter fun e => kept.contains i || e.pin).toArray, by simp⟩

/-- Every entry's age is compared with the thresholds of its state (R5). -/
def State.testAges (s : State) : State := s.mapTable (·.thresholds s.profile)

/-! ### Reports (R2 to R4, R15, R23 to R31) -/

/-- A report that has passed the checks: level R and quality after clamping (R25, R26). -/
structure Checked where
  network : Nat
  generation : Nat
  cell : Nat
  channel : Nat
  level : Int
  quality : Option Nat
deriving DecidableEq, Repr

/-- What the checks of R24 to R27 say of a report. -/
inductive Verdict where
  | passed (c : Checked)
  | dropped (o : ReportOutcome)
deriving DecidableEq, Repr

/-- The identity check (R24). -/
def identityPlausible (gens : Option GenerationSet) (x : RawReport) : Bool :=
  gens.any (·.has x.generation) && x.cell ≤ 268435455 && x.network ≤ 999999

/-- The level after R25's clamp. -/
def clampLevel (l : Int) : Int := min (-44) (max (-140) l)

/-- The quality after R26 for a carried value up to 99: 99 is no quality. -/
def clampQuality (q : Nat) : Option Nat := if q = 99 then none else some (min 31 q)

/-- The contradiction check, on the values after clamping (R27). -/
def contradictory (level : Int) (quality : Option Nat) : Bool := level == -140 && quality.any (20 ≤ ·)

/-- The checks in order, each stopping at the first that drops the report, with the number of clamps applied (R23 to
R27). -/
def checkReport (gens : Option GenerationSet) (x : RawReport) : Verdict × Nat :=
  if !identityPlausible gens x then (.dropped .implausible, 0)
  else if x.level < -200 || 0 < x.level then (.dropped .implausible, 0)
  else
    let level := clampLevel x.level
    let c := if level = x.level then 0 else 1
    if 100 ≤ x.quality then (.dropped .implausible, c)
    else
      let quality := clampQuality x.quality
      let c := if 32 ≤ x.quality ∧ x.quality ≤ 98 then c + 1 else c
      if contradictory level quality then (.dropped .contradictory, c)
      else (.passed ⟨x.network, x.generation, x.cell, x.channel, level, quality⟩, c)

/-- The level smoothed into M (R30). -/
def smooth (k : Nat) (level m : Int) : Int :=
  let d := 16 * level - m
  let q := d.tdiv (2 ^ k : Nat)
  m + (if q = 0 then d.sign else q)

/-- The state that a taken report gives a heard entry whose report count has just risen (R4). -/
def heardAfter (h : Heard) (reports : Nat) : Heard :=
  match h with
  | .steady => .steady
  | .fresh | .fading => if 3 ≤ reports then .steady else .fresh

/-- A report taken for a heard entry (R4, R30, R31). -/
def Entry.hear (p : Profile) (e : Entry) (h : Heard) (x : Checked) : Entry :=
  let reports := satSucc 255 e.reports
  ({ e with
      level := smooth p.smoothing x.level e.level
      quality := x.quality.or e.quality
      channel := x.channel
      reports := reports
      age := 0 } : Entry).enterRanked p.biases (heardAfter h reports)

/-- A report taken for an entry (R4): a HELD entry's hold ends first, a LOST entry returns as a fresh observation. -/
def Entry.takeReport (p : Profile) (e : Entry) (x : Checked) : Entry :=
  match e.state with
  | .ranked h => e.hear p h x
  | .held h => e.hear p h x
  | .lost =>
    ({ e with
        level := 16 * x.level
        quality := x.quality.or e.quality
        channel := x.channel
        reports := 1
        age := 0 } : Entry).enterRanked p.biases .fresh

/-- The tier that the preference list gives a network code (R41). -/
def tierOf (l : Preferences) (code : Nat) : Nat :=
  ((l.list.toList.filterMap id).find? fun x => x.code == code).elim 1 (·.tier)

/-- The entry a newcomer receives, with its provisional score (R3, R15, R33). -/
def newcomer (s : State) (r : Radio) (x : Checked) : Entry :=
  ({ radio := r, network := x.network, generation := x.generation, cell := x.cell, channel := x.channel
     level := 16 * x.level, quality := x.quality, reports := 1, credit := Config.creditRest
     tier := tierOf s.prefs x.network, state := .ranked .fresh, age := 0, excludedFor := none, pin := false
     score := 0 } : Entry).rescore s.profile.biases

/-- The report's key is the entry's (R2). -/
def sameKey (r : Radio) (x : Checked) (e : Entry) : Bool :=
  e.radio == r && e.network == x.network && e.generation == x.generation && e.cell == x.cell

/-- The occupied entry with the report's key (R2). -/
def findKey (s : State) (r : Radio) (x : Checked) : Option (Nat × Entry) :=
  (occupiedSlots s.table.slots).find? fun y => sameKey r x y.2

/-- The CRITICAL bound is in force (R18). -/
def boundInForce (s : State) : Bool :=
  s.supply.condition == .critical
    && Config.criticalKeep + pinnedCount s.table.slots ≤ occupiedCount s.table.slots

/-- Of two unpinned entries, the one that the victim rule prefers: the lower score, on equal scores the later slot
(R15). -/
def weaker (x y : Nat × Entry) : Nat × Entry := if y.2.score ≤ x.2.score then y else x

/-- The victim: the lowest-numbered unpinned LOST entry, else the unpinned entry of lowest score (R15). -/
def victim (t : Slots) : Option (Nat × Entry) :=
  let unpinned := (occupiedSlots t).filter fun x => !x.2.pin
  match unpinned.find? fun x => x.2.state == .lost with
  | some x => some x
  | none =>
    match unpinned with
    | [] => none
    | x :: rest => some (rest.foldl weaker x)

/-- A report that has passed the checks meets the table: taken for its entry, inserted, or put to the victim rule
(R2 to R4, R15, R18).  The last component says whether an entry joined the ranked list (R20). -/
def State.meetTable (s : State) (r : Radio) (x : Checked) : State × ReportOutcome × Bool :=
  match findKey s r x with
  | some (i, e) => (s.setSlots (putSlot s.table.slots i (some (e.takeReport s.profile x))), .taken, !e.isRanked)
  | none =>
    let e := newcomer s r x
    match (if boundInForce s then none else freeSlot s.table.slots) with
    | some i => (s.setSlots (putSlot s.table.slots i (some e)), .taken, true)
    | none =>
      match victim s.table.slots with
      | some (i, v) =>
        if v.score < e.score then
          let s := s.setSlots (putSlot s.table.slots i none)
          (s.setSlots (putSlot s.table.slots i (some e)), .taken, true)
        else (s, .tableFull, false)
      | none => (s, .tableFull, false)

/-- A count raised by some, saturating at 65535 (R28). -/
def satAdd16 (n d : Nat) : Nat := min 65535 (n + d)

/-- The intake counts after one report (R28). -/
def IntakeCounts.add (c : IntakeCounts) (o : ReportOutcome) (clamps : Nat) : IntakeCounts :=
  let c := { c with clamped := satAdd16 c.clamped clamps }
  match o with
  | .taken => { c with taken := satAdd16 c.taken 1 }
  | .tableFull => { c with tableFull := satAdd16 c.tableFull 1 }
  | .contradictory => { c with contradictory := satAdd16 c.contradictory 1 }
  | .implausible => { c with implausible := satAdd16 c.implausible 1 }

end Sys2Proof.Machine
end

