-- ==== Sys2Proof/Machine/Survey.lean ====
section
/-! DEFINITION. The survey scheduler (chapter 5). -/

namespace Sys2Proof.Machine

/-! ### Effective values (R75) -/

/-- The effective mode (R75). -/
def effectiveMode (m : SurveyMode) (c : Condition) : SurveyMode :=
  match c with
  | .normal | .low => m
  | .critical => if m = .off then .off else .paused

/-- The effective arrangement (R75). -/
def effectiveArrangement (a : Arrangement) (c : Condition) : Arrangement :=
  match c with
  | .normal => a
  | .low | .critical => .alternate

/-- The effective pause for a pause time in force, in s (R75). -/
def effectivePause (pause : Nat) (c : Condition) : Nat :=
  match c with
  | .normal => pause
  | .low | .critical => min Config.maxPause (2 * pause)

/-- The effective values of a state: they are computed, so they are formed anew wherever what they rest on changes. -/
def State.effMode (s : State) : SurveyMode := effectiveMode s.survey.mode s.supply.condition
def State.effArrangement (s : State) : Arrangement := effectiveArrangement s.profile.arrangement s.supply.condition
def State.effPause (s : State) : Nat := effectivePause s.survey.pause s.supply.condition

/-! ### Survey states -/

/-- A radio's survey state (R73). -/
def State.surveyOf (s : State) (r : Radio) : SurveyState := s.survey.states.get r

/-- The state is WAITING. -/
def SurveyState.isWaiting : SurveyState → Bool
  | .waiting _ => true
  | .due | .ordered _ | .running _ _ _ => false

/-- The state is RUNNING. -/
def SurveyState.isRunning : SurveyState → Bool
  | .running _ _ _ => true
  | .due | .ordered _ | .waiting _ => false

/-- The state is ORDERED or RUNNING with a non-urgent survey (R77). -/
def SurveyState.isBusy : SurveyState → Bool
  | .ordered u => !u
  | .running u _ _ => !u
  | .due | .waiting _ => false

/-- The shared pause is present only while a radio is WAITING (R72). -/
def Scheduler.trimShared (c : Scheduler) : Scheduler :=
  if c.states.a.isWaiting || c.states.b.isWaiting then c else { c with shared := none }

/-- A radio's survey state is replaced. -/
def State.setSurvey (s : State) (r : Radio) (v : SurveyState) : State :=
  s.mapSurvey fun c => ({ c with states := c.states.set r v } : Scheduler).trimShared

/-! ### Ordering (R77, R78, R84, R85) -/

/-- The operate preload, when present, becomes the operate time in force (R84). -/
def Scheduler.loadOperate (c : Scheduler) : Scheduler :=
  { c with operate := c.operatePreload.getD c.operate, operatePreload := none }

/-- The pause preload, when present, becomes the pause time in force (R83, R84). -/
def Scheduler.loadPause (c : Scheduler) : Scheduler :=
  { c with pause := c.pausePreload.getD c.pause, pausePreload := none }

/-- A SURVEY order is queued to a radio, which becomes ORDERED (R77, R85). -/
def State.orderSurvey (s : State) (r : Radio) (urgent : Bool) : State :=
  let s := (s.mapSurvey Scheduler.loadOperate).setSurvey r (.ordered urgent)
  s.enqueue r (.survey (s.survey.operate * 1000) urgent)

/-- The conditions of R77 that concern one radio: mode, DUE, READY. -/
def State.surveyWanted (s : State) (r : Radio) : Bool :=
  (match s.effMode with
    | .continuous => true
    | .once => s.survey.owed.get r
    | .off | .paused => false)
  && s.surveyOf r == .due && s.radioReady r

/-- The conditions of R77 are tested, and the orders they allow are queued.  Under ALTERNATE the order goes to the
radio other than the last surveyed, to A when none has been surveyed. -/
def State.surveyTest (s : State) : State :=
  match s.effArrangement with
  | .parallel =>
    let s := if s.surveyWanted .A then s.orderSurvey .A false else s
    if s.surveyWanted .B then s.orderSurvey .B false else s
  | .alternate =>
    if (s.surveyOf .A).isBusy || (s.surveyOf .B).isBusy then s
    else
      let first := (s.survey.last.map otherRadio).getD .A
      if s.surveyWanted first then s.orderSurvey first false
      else if s.surveyWanted (otherRadio first) then s.orderSurvey (otherRadio first) false
      else s

/-- A queued SURVEY order leaves its queue without being taken: its radio becomes DUE (R78).  The conditions of R77
are tested by the caller. -/
def State.dropSurvey (s : State) (r : Radio) : State :=
  if s.hasOrder r .survey then
    let s := s.dropOrders r .survey
    match s.surveyOf r with
    | .ordered _ => s.setSurvey r .due
    | .waiting _ | .due | .running _ _ _ => s
  else s

/-- A queued SURVEY order is removed, and the conditions of R77 are tested (R77, R78). -/
def State.removeSurvey (s : State) (r : Radio) : State :=
  if s.hasOrder r .survey then (s.dropSurvey r).surveyTest else s

/-- The test of R85 for one radio while the urgent request stands. -/
def State.urgentTest (s : State) (r : Radio) : State :=
  if s.survey.urgent && s.radioReady r && !(s.surveyOf r).isRunning && s.surveyOf r != .ordered true then
    s.orderSurvey r true
  else s

/-- The urgent request begins (R85). -/
def State.urgentBegin (s : State) : State :=
  ((s.mapSurvey fun c => { c with urgent := true }).urgentTest .A).urgentTest .B

/-- A queued urgent SURVEY order is removed (R85). -/
def State.dropUrgent (s : State) (r : Radio) : State :=
  if s.surveyOf r == .ordered true then s.dropSurvey r else s

/-- The urgent request ends: queued urgent orders are removed, and the conditions of R77 are tested (R85). -/
def State.urgentEnd (s : State) : State :=
  (((s.mapSurvey fun c => { c with urgent := false }).dropUrgent .A).dropUrgent .B).surveyTest

/-! ### Changes of the effective values (R75, R76) -/

/-- A queued non-urgent SURVEY order is removed (R75). -/
def State.dropNonUrgent (s : State) (r : Radio) : State :=
  if s.surveyOf r == .ordered false then s.dropSurvey r else s

/-- A WAITING state becomes DUE. -/
def SurveyState.wake : SurveyState → SurveyState
  | .waiting _ => .due
  | .due => .due
  | .ordered u => .ordered u
  | .running u w t => .running u w t

/-- Every pause is discarded and every WAITING radio becomes DUE (R75). -/
def Scheduler.discardPauses (c : Scheduler) : Scheduler :=
  { c with states := ⟨c.states.a.wake, c.states.b.wake⟩, shared := none }

/-- A pause is held, or counts again. -/
def Pause.hold (v : Bool) (p : Pause) : Pause := { p with held := v }

/-- A radio's own pause is held, or counts again. -/
def SurveyState.holdPause (v : Bool) : SurveyState → SurveyState
  | .waiting own => .waiting (own.map (Pause.hold v))
  | .due => .due
  | .ordered u => .ordered u
  | .running u w t => .running u w t

/-- Every pause is held, or counts again (R75). -/
def Scheduler.holdPauses (v : Bool) (c : Scheduler) : Scheduler :=
  { c with states := ⟨c.states.a.holdPause v, c.states.b.holdPause v⟩, shared := c.shared.map (Pause.hold v) }

/-- What happens at a change of the effective mode (R75). -/
def State.modeChange (s : State) (old : SurveyMode) : State :=
  let new := s.effMode
  if new = old then s
  else match new with
    | .off => ((s.dropNonUrgent .A).dropNonUrgent .B).mapSurvey Scheduler.discardPauses
    | .paused => ((s.dropNonUrgent .A).dropNonUrgent .B).mapSurvey (Scheduler.holdPauses true)
    | .continuous => s.mapSurvey (Scheduler.holdPauses false)
    | .once => s.mapSurvey Scheduler.discardPauses

/-- A radio's own pause. -/
def SurveyState.ownPause : SurveyState → Option Pause
  | .waiting own => own
  | .due | .ordered _ | .running _ _ _ => none

/-- A WAITING radio is given an own pause, or loses it. -/
def SurveyState.withOwn (p : Option Pause) : SurveyState → SurveyState
  | .waiting _ => .waiting p
  | .due => .due
  | .ordered u => .ordered u
  | .running u w t => .running u w t

/-- The pause with the smaller remaining time. -/
def smallerPause : Option Pause → Option Pause → Option Pause
  | some p, some q => if q.remaining < p.remaining then some q else some p
  | some p, none => some p
  | none, q => q

/-- What happens to the pauses at a change of the effective arrangement (R76). -/
def Scheduler.arrange (c : Scheduler) (new : Arrangement) : Scheduler :=
  match new with
  | .alternate =>
    { c with
      shared := smallerPause c.states.a.ownPause c.states.b.ownPause
      states := ⟨c.states.a.withOwn none, c.states.b.withOwn none⟩ }
  | .parallel =>
    { c with
      shared := none
      states := ⟨c.states.a.withOwn c.shared, c.states.b.withOwn c.shared⟩ }

/-- What happens at a change of the effective arrangement (R76). -/
def State.arrangementChange (s : State) (old : Arrangement) : State :=
  if s.effArrangement = old then s else s.mapSurvey (·.arrange s.effArrangement)

/-- A change that the effective values rest on: their changes act at once, and the conditions of R77 are tested (R75,
R76, R77). -/
def State.reform (s : State) (f : State → State) : State :=
  (((f s).modeChange s.effMode).arrangementChange s.effArrangement).surveyTest

/-! ### ONCE rounds (R74) -/

/-- The round is complete: the set mode becomes OFF and the ONCE-done flag is set (R74). -/
def State.roundComplete (s : State) : State :=
  s.reform (·.mapSurvey fun c => { c with mode := .off, onceDone := true })

/-- A radio leaves the owed set; when that empties it, the round completes (R74). -/
def State.leaveOwed (s : State) (r : Radio) : State :=
  if s.survey.mode = .once ∧ s.survey.owed.get r = true then
    let s := s.mapSurvey fun c => { c with owed := c.owed.set r false }
    if s.survey.owed = ⟨false, false⟩ then s.roundComplete else s
  else s

/-- A radio whose ANNOUNCE is taken joins the owed set of a round (R74). -/
def State.joinOwed (s : State) (r : Radio) : State :=
  if s.survey.mode = .once then s.mapSurvey fun c => { c with owed := c.owed.set r true } else s

/-- The radio may owe a survey: it is neither OFF nor FAULT (R74). -/
def State.mayOwe (s : State) (r : Radio) : Bool :=
  match (s.radio r).state with
  | .off | .fault => false
  | .starting | .ready | .surveying | .attempting | .inCall | .snooze | .silent => true

/-- SET SURVEY MODE with a defined mode (R74, R75). -/
def State.setSurveyMode (s : State) (m : SurveyMode) : State :=
  s.reform fun s =>
    let owed : PerRadio Bool := ⟨s.mayOwe .A, s.mayOwe .B⟩
    s.mapSurvey fun c =>
      if m = .once then
        if owed = ⟨false, false⟩ then { c with mode := .off, onceDone := true, owed := owed }
        else { c with mode := .once, onceDone := false, owed := owed }
      else { c with mode := m, onceDone := false }

/-! ### Survey endings (R79 to R82) -/

/-- The radio has taken its SURVEY order: RUNNING, with the order's urgent mark and window (R79). -/
def State.startSurvey (s : State) (r : Radio) (window : Nat) (urgent : Bool) : State :=
  s.setSurvey r (.running urgent window 0)

/-- Steps 1 and 2 of R82; `counted` says that the survey ended DONE or by its own window expiry. -/
def State.surveyEndFirst (s : State) (r : Radio) (counted : Bool) : State :=
  let s := s.mapSurvey fun c => { c with last := some r }
  if counted then s.leaveOwed r else s

/-- A pause is loaded: the preload first, then the effective pause in force (R83). -/
def State.loadedPause (s : State) (held : Bool) : State × Pause :=
  let s := s.mapSurvey Scheduler.loadPause
  (s, ⟨s.effPause * 1000, held⟩)

/-- Under ALTERNATE the radio and every DUE radio become WAITING under the shared pause just loaded (R82). -/
def Scheduler.restShared (c : Scheduler) (r : Radio) (p : Pause) : Scheduler :=
  let o := otherRadio r
  let states := c.states.set r (.waiting none)
  { c with
    states := if c.states.get o = .due then states.set o (.waiting none) else states
    shared := some p }

/-- Step 5 of R82: the radio rests as the effective mode and arrangement say. -/
def State.surveyRest (s : State) (r : Radio) : State :=
  match s.effMode with
  | .once | .off => s.setSurvey r .due
  | .continuous | .paused =>
    let x := s.loadedPause (s.effMode == .paused)
    match s.effArrangement with
    | .parallel => x.1.setSurvey r (.waiting (some x.2))
    | .alternate => x.1.mapSurvey (·.restShared r x.2)

/-- Steps 3 to 5 of R82, and the test that follows. -/
def State.surveyEndRest (s : State) (r : Radio) : State :=
  if s.survey.urgent && s.radioReady r then (s.orderSurvey r true).surveyTest
  else
    (match (s.radio r).state with
      | .starting | .snooze | .fault | .off => s.setSurvey r .due
      | .ready | .surveying | .attempting | .inCall | .silent => s.surveyRest r).surveyTest

/-- A RUNNING survey of a radio ends without returning the radio to READY: PREEMPTED, or OVERRUN by silence, fault or
announcement (R81, R82). -/
def State.cutSurvey (s : State) (r : Radio) : State :=
  if (s.surveyOf r).isRunning then (s.surveyEndFirst r false).surveyEndRest r else s

/-- The scheduler is told of a radio's change of state (R54, R78, R85): STARTING, FAULT and OFF leave the radio DUE;
READY brings the tests; a state in which an ORDERED survey could not be taken has its order removed. -/
def State.tellScheduler (s : State) (r : Radio) : State :=
  match (s.radio r).state with
  | .off | .starting | .fault => (s.setSurvey r .due).surveyTest
  | .ready => (s.urgentTest r).surveyTest
  | .surveying => s
  | .attempting | .inCall | .snooze | .silent => s.removeSurvey r

/-- A radio comes to READY from STARTING: it is DUE at once, whatever the mode, though another radio's survey end may have
made it WAITING (R78, R82); no other survey state changes. -/
def State.dueFromStart (s : State) (r : Radio) : State := s.setSurvey r (s.surveyOf r).wake

/-- The radio's own pause has expired (R83). -/
def State.pauseExpired (s : State) (r : Radio) : State := (s.setSurvey r .due).surveyTest

/-- The shared pause has expired: every WAITING radio becomes DUE (R83). -/
def State.sharedPauseExpired (s : State) : State := (s.mapSurvey Scheduler.discardPauses).surveyTest

/-- Soft reset of the scheduler (R72). -/
def Scheduler.softReset (c : Scheduler) (p : Profile) : Scheduler :=
  { c with
    owed := ⟨false, false⟩
    states := ⟨.due, .due⟩
    shared := none
    last := none
    urgent := false
    operate := p.operate
    pause := p.pause
    operatePreload := none
    pausePreload := none }

end Sys2Proof.Machine
end

