-- ==== Sys2Proof/Machine/Supply.lean ====
section
/-! DEFINITION. The supply monitor: qualifying the lines, the condition, and putting radios to sleep and waking them
(chapter 11). -/

namespace Sys2Proof.Machine

/-! ### Snoozing and waking (R158 to R161) -/

/-- The radio is the held radio of the callback part. -/
def State.isHeldRadio (s : State) (r : Radio) : Bool := s.call.part.any fun p => p.held.any fun h => h.radio == r

/-- The radio is the offering radio of an offer. -/
def State.isOfferingRadio (s : State) (r : Radio) : Bool := s.call.part.any fun p => p.offer.any fun o => o.radio == r

/-- A POWER SNOOZE order arrives: it removes a queued SURVEY order, and the scheduler is told (R65, R66). -/
def State.sendSnooze (s : State) (r : Radio) : State :=
  match (s.radio r).state with
  | .off | .fault => s
  | .starting | .ready | .surveying | .attempting | .inCall | .snooze | .silent =>
    let t := (s.dropSurvey r).enqueue r (.power .snooze)
    if s.hasOrder r .survey then t.surveyTest else t

/-- A POWER WAKE order arrives (R65). -/
def State.sendWake (s : State) (r : Radio) : State := s.enqueue r (.power .wake)

/-- STARTING, READY or SURVEYING (R159, R160). -/
def RadioState.isAwake : RadioState → Bool
  | .starting | .ready | .surveying => true
  | .off | .attempting | .inCall | .snooze | .silent | .fault => false

/-- SILENT, FAULT or OFF (R160). -/
def RadioState.isGone : RadioState → Bool
  | .silent | .fault | .off => true
  | .starting | .ready | .surveying | .attempting | .inCall | .snooze => false

/-- The conditions of R159 for one radio. -/
def State.criticalSleeper (s : State) (r : Radio) : Bool :=
  (s.radio r).state.isAwake && !s.isHeldRadio r && !s.isOfferingRadio r && !s.hasSnooze r

/-- Under CRITICAL, with snoozing permitted (R159). -/
def State.criticalSnooze (s : State) : State :=
  let s := if s.criticalSleeper .A then s.sendSnooze .A else s
  if s.criticalSleeper .B then s.sendSnooze .B else s

/-- A radio is snoozing when it is SNOOZE or its queue holds a POWER SNOOZE order (R160). -/
def State.isSnoozing (s : State) (r : Radio) : Bool := (s.radio r).state == .snooze || s.hasSnooze r

/-- A radio is working when it is STARTING, READY, SURVEYING or snoozing (R160). -/
def State.isWorkingLow (s : State) (r : Radio) : Bool := (s.radio r).state.isAwake || s.isSnoozing r

/-- Under LOW, with the call IDLE, one radio is kept awake (R160). -/
def State.lowSnooze (s : State) : State :=
  let snoozeA := s.isSnoozing .A
  let snoozeB := s.isSnoozing .B
  if s.isWorkingLow .A && s.isWorkingLow .B then
    if !snoozeA && !snoozeB then
      if s.rankedCount .A < s.rankedCount .B then s.sendSnooze .A else s.sendSnooze .B
    else if snoozeA && snoozeB then
      if s.rankedCount .A < s.rankedCount .B then s.sendWake .B else s.sendWake .A
    else s
  else if snoozeA && (s.radio .B).state.isGone then s.sendWake .A
  else if snoozeB && (s.radio .A).state.isGone then s.sendWake .B
  else s

/-- A radio in SNOOZE is woken (R161). -/
def State.wakeOne (s : State) (r : Radio) : State := if (s.radio r).state == .snooze then s.sendWake r else s

/-- When snoozing is not permitted, every radio in SNOOZE is woken (R161). -/
def State.wakeAll (s : State) : State := (s.wakeOne .A).wakeOne .B

/-- The snooze test (R158).  `begun` says that a new call is to be treated as already begun. -/
def State.snoozeTest (s : State) (begun : Bool) : State :=
  match s.supply.condition with
  | .normal => s.wakeAll
  | .low => if !begun && s.call.state == .idle then s.lowSnooze else s.wakeAll
  | .critical => if !begun && (s.call.state == .idle || s.call.part.isSome) then s.criticalSnooze else s.wakeAll

/-! ### Lines and condition (R156, R157) -/

/-- A supply line. -/
def SupplyMonitor.line (m : SupplyMonitor) : Line → SupplyLine
  | .lowv => m.lowv
  | .critv => m.critv

/-- The monitor with a line changed. -/
def SupplyMonitor.setLine (m : SupplyMonitor) (l : Line) (x : SupplyLine) : SupplyMonitor :=
  match l with
  | .lowv => { m with lowv := x }
  | .critv => { m with critv := x }

/-- The state with a supply line changed. -/
def State.setLine (s : State) (l : Line) (x : SupplyLine) : State := { s with supply := s.supply.setLine l x }

/-- A change of a raw level: away from the qualified level it starts the qualifying timer, back to it it discards the
timer (R156). -/
def SupplyLine.change (x : SupplyLine) (level : Bool) : SupplyLine :=
  if level = x.raw then x
  else { x with raw := level, timer := if level = x.qualified then none else some 0 }

/-- The condition that the qualified levels give (R157). -/
def SupplyMonitor.formed (m : SupplyMonitor) : Condition :=
  if m.critv.qualified then .critical else if m.lowv.qualified then .low else .normal

/-- The stagger becomes STOPPED when the condition has left NORMAL (R124, R157). -/
def State.staggerOnCondition (s : State) (old : Condition) : State :=
  if old = .normal ∧ s.supply.condition ≠ .normal then s.mapCall fun c => { c with stagger := .stopped } else s

/-- Retention on entry into CRITICAL (R17, R157). -/
def State.retainOnCondition (s : State) (old : Condition) : State :=
  if old ≠ .critical ∧ s.supply.condition = .critical then s.retain else s

/-- The condition is formed anew, and a change acts on the blocks in order (R157). -/
def State.formCondition (s : State) : State :=
  let new := s.supply.formed
  if new = s.supply.condition then s
  else
    let t := s.reform fun s => { s with supply := { s.supply with condition := new } }
    let t := (t.retainOnCondition s.supply.condition).staggerOnCondition s.supply.condition
    (t.snoozeTest false).post .supply

/-- Expiry of a qualifying timer (R156). -/
def State.qualify (s : State) (l : Line) : State :=
  let x := s.supply.line l
  (s.setLine l { x with qualified := x.raw, timer := none }).formCondition

end Sys2Proof.Machine
end

