-- ==== Sys2Proof/Machine/Radio.lean ====
section
/-! DEFINITION. Changes of a radio's state and what its neighbours are told (R53, R54, R60, R61, R66, R69). -/

namespace Sys2Proof.Machine

/-- A context enters a state: the silence timer runs in the working states and starts at 0 on entry from outside them;
the start timer runs in STARTING (R60, R61). -/
def RadioContext.enter (c : RadioContext) (st : RadioState) : RadioContext :=
  { c with
    state := st
    silence := if st.isWorking then (if c.state.isWorking then c.silence else some 0) else none
    start := if st = .starting then some 0 else none }

/-- A radio's state changes; a radio that leaves SILENT has its silent-hold time stopped (R9), and the available count
follows (R20). -/
def State.setRadioState (s : State) (r : Radio) (st : RadioState) : State :=
  let t := noteTable s (s.mapRadio r (·.enter st))
  if (s.radio r).state = .silent ∧ st ≠ .silent then t.setSilentHold r none else t

/-- A radio's entry into READY as the reach table, the survey scheduler, the notice unit and the supply monitor hear of
it (R54), the call controller being told by the caller. -/
def State.readyNeighbours (s : State) (r : Radio) : State :=
  ((s.tellScheduler r).post .radio).snoozeTest false

/-- The release of a radio by the call controller: from ATTEMPTING or IN_CALL it becomes READY, elsewhere it stays
(R69).  The call controller acts on the entry into READY at the end of its handling (`settle`). -/
def State.release (s : State) (r : Radio) : State :=
  match (s.radio r).state with
  | .attempting | .inCall => ((s.setRadioState r .ready).returnEntries r).readyNeighbours r
  | .off | .starting | .ready | .surveying | .snooze | .silent | .fault => s

/-- An attempt, or a callback leg, connects: the radio becomes IN_CALL from the state that R69 gives. -/
def State.enterCall (s : State) (r : Radio) (from_ : RadioState) : State :=
  if (s.radio r).state = from_ then ((s.setRadioState r .inCall).tellScheduler r).snoozeTest false else s

/-- An ATTEMPT order is queued (R66): the radio becomes ATTEMPTING, a running survey ends PREEMPTED, queued SURVEY and
POWER SNOOZE orders are removed, and the take deadline starts. -/
def State.queueAttempt (s : State) (r : Radio) (o : Order) : State :=
  let t := s.setRadioState r .attempting
  let t := if (s.radio r).state = .surveying then t.cutSurvey r else t
  let t := ((t.removeSurvey r).dropSnooze r).mapRadio r fun c => { c with take := some 0 }
  (t.enqueue r o).snoozeTest true

/-- A CALLBACK ANSWER order is queued: it removes a queued POWER SNOOZE order (R66). -/
def State.queueAnswer (s : State) (r : Radio) : State := (s.dropSnooze r).enqueue r (.callback .answer)

end Sys2Proof.Machine
end

