-- ==== Sys2Proof/Machine/Call.lean ====
section
/-! DEFINITION. The call controller: call states, selection, ordering attempts, the stagger, endings of attempts and the
call's own ending (chapters 6, 7 and 8), with the callback part's forming and return (R139, R144). -/

namespace Sys2Proof.Machine

/-! ### Call state and voice route -/

/-- The call state changes: CALL is posted, the urgent request begins or ends with SEEKING, and the supply monitor is
told; the call start time is absent in IDLE (R87, R88, R158). -/
def State.setCall (s : State) (st : CallState) : State :=
  if s.call.state = st then s
  else
    let t := (s.mapCall fun c =>
      { c with state := st, startTime := if st = .idle then none else c.startTime }).post .call
    let t := if s.call.state = .seeking then t.urgentEnd else t
    let t := if st = .seeking then t.urgentBegin else t
    t.snoozeTest false

/-- The voice route changes: the lines follow it, and ROUTE is posted (R136, R137). -/
def State.setRoute (s : State) (v : Option Radio) : State :=
  if s.call.route = v then s
  else
    (s.mapCall fun c => { c with route := v, lineA := v == some .A, lineB := v == some .B }).post .route

/-- The stagger state is set (R122). -/
def State.setStagger (s : State) (g : Stagger) : State := s.mapCall fun c => { c with stagger := g }

/-! ### Attempts in flight -/

/-- An attempt with no disposition: one that the part still wants (R103). -/
def Attempt.isWanted (a : Attempt) : Bool := a.disposition.isNone

/-- The step is one from which a second attempt may still be ordered (R125, R127). -/
def AttemptStep.isEarly : AttemptStep → Bool
  | .ordered | .taken | .accepted => true
  | .alerting | .connected => false

/-- The attempt in flight with a number. -/
def State.attempt (s : State) (number : Nat) : Option Attempt := s.call.attempts.find? fun a => a.number == number

/-- The attempt in flight with a number is changed. -/
def State.mapAttempt (s : State) (number : Nat) (f : Attempt → Attempt) : State :=
  s.mapCall fun c => { c with attempts := c.attempts.map fun a => if a.number = number then f a else a }

/-- The attempt leaves the attempts in flight. -/
def State.removeAttempt (s : State) (number : Nat) : State :=
  s.mapCall fun c => { c with attempts := c.attempts.filter fun a => a.number != number }

/-- The ATTEMPT record of an attempt, written at its removal; the duration runs from the connection for a leg, from the
ordering otherwise (R120). -/
def State.recordAttempt (s : State) (a : Attempt) (o : RecordOutcome) (reason : Option EndReason) : State :=
  s.writeRecord {
    kind := .attempt, call := s.call.number, attempt := some a.number, radio := some a.radio
    network := some a.network, generation := some a.generation, cell := some a.cell
    outcome := some o, reason := reason, duration := s.since (a.connected.getD a.ordered), time := 0, gap := 0 }

/-- The record is written and the attempt removed (R112, R116, R118, R119, R132). -/
def State.closeAttempt (s : State) (a : Attempt) (o : RecordOutcome) : State :=
  (s.recordAttempt a o none).removeAttempt a.number

/-! ### Selection (R92, R93) -/

/-- The candidates in rank order (R92). -/
def State.candidates (s : State) : List (Nat × Entry) :=
  s.ranked.filter fun x =>
    s.radioOpen x.2.radio && x.2.excludedFor.isNone
      && s.call.attempts.all fun a => a.slot != x.1 && a.radio != x.2.radio

/-- The eligible set: the candidates of tier 1 to 3, or all of them when every one has tier 0 (R92). -/
def eligible (l : List (Nat × Entry)) : List (Nat × Entry) :=
  if l.any fun x => 1 ≤ x.2.tier then l.filter fun x => 1 ≤ x.2.tier else l

/-- The radio that selection turns away from: the last failed, when it has failed twice in a row or more (R93). -/
def State.shunned (s : State) : Option Radio :=
  s.call.lastFailed.filter fun r => 2 ≤ s.call.radioFailures.get r

/-- The walk's choice: the eligible entry of lowest rank, but of the other radio where R93 prefers it. -/
def State.choose (s : State) : Option (Nat × Entry) :=
  let l := eligible s.candidates
  match s.shunned with
  | some r => (l.find? fun x => x.2.radio == otherRadio r).or l.head?
  | none => l.head?

/-- The restricted walk over one radio's candidates: the tier rule, without the preference of R93. -/
def State.chooseOn (s : State) (r : Radio) : Option (Nat × Entry) :=
  (eligible (s.candidates.filter fun x => x.2.radio == r)).head?

/-! ### Ordering an attempt (R94, R105, R123) -/

/-- The number after an attempt number, wrapping from 255 to 1 (R94). -/
def nextNumber (n : Nat) : Nat := if n < 255 then n + 1 else 1

/-- The next attempt number once a number has been taken: it advances by one, and a number that an attempt in flight has
is skipped (R94).  At most two are in flight, the one that took the number among them, so at most one is skipped. -/
def numberAfter (l : List Attempt) (n : Nat) : Nat :=
  if l.any fun a => a.number == nextNumber n then nextNumber (nextNumber n) else nextNumber n

/-- The stagger is in effect: dual mode STAGGERED and condition NORMAL (R122). -/
def State.staggerInEffect (s : State) : Bool := s.profile.staggered && s.supply.condition == .normal

/-- The call places attempts. -/
def State.isPlacing (s : State) : Bool := s.call.state == .placing || s.call.state == .recovering

/-- The stagger at the ordering of an attempt: COUNTING for a lone one, STOPPED for a second one (R123, R125). -/
def State.staggerOnOrder (s : State) (number : Nat) : State :=
  if s.call.attempts.any fun a => a.isWanted && a.number != number then s.setStagger .stopped
  else if s.staggerInEffect && s.isPlacing then s.setStagger (.counting 0)
  else s

/-- The record of an attempt newly ordered (R94, R103, R105). -/
def newAttempt (s : State) (i : Nat) (e : Entry) (number : Nat) : Attempt where
  number := number
  radio := e.radio
  slot := i
  network := e.network
  generation := e.generation
  cell := e.cell
  step := .ordered
  ordered := s.now
  connected := none
  disposition := none
  setup := none
  answer := none

/-- The call becomes PLACING when an attempt is ordered, and stays RECOVERING (R94, step 5). -/
def State.enterPlacing (s : State) : State :=
  match s.call.state with
  | .idle | .seeking | .backoff | .callback => s.setCall .placing
  | .placing | .recovering | .connected | .ending => s

/-- An attempt is ordered on an entry (R94). -/
def State.orderAttempt (s : State) (i : Nat) (e : Entry) : State :=
  let number := s.call.nextAttempt
  let l := s.call.attempts ++ [newAttempt s i e number]
  let t := s.mapCall fun c => { c with attempts := l, nextAttempt := numberAfter l number }
  let t := (t.pinSlot i).queueAttempt e.radio (.attempt number i e.network e.generation e.cell e.channel)
  t.enterPlacing.staggerOnOrder number

/-! ### Surplus losers (R131, R132, R134) -/

/-- An attempt ends without blame: outcome event of no credit, unpin, release, record, removal; no exclusion, and the
counts are not changed (R118, R119, R132). -/
def State.endQuietly (s : State) (a : Attempt) (o : RecordOutcome) : State :=
  ((((s.outcomeEvent a.slot .noBlame).unpinSlot a.slot).dropAttemptOrder a.radio a.number).release a.radio).closeAttempt
    a o

/-- Each surplus loser in flight is given up (R134). -/
def State.giveUpSurplus (s : State) : State :=
  (s.call.attempts.filter fun a => a.disposition == some .surplus).foldl (fun s a => s.endQuietly a .surplus) s

/-! ### Selection's outcome and the events that run it (R94, R95, R126) -/

/-- Selection has found nothing: surplus losers are given up and the call becomes SEEKING (R94, R134). -/
def State.foundNothing (s : State) : State :=
  match s.call.state with
  | .idle | .callback | .backoff | .recovering | .placing => s.giveUpSurplus.setCall .seeking
  | .seeking | .connected | .ending => s

/-- Selection runs: an attempt is ordered, or nothing is found (R92 to R94). -/
def State.runSelection (s : State) : State :=
  match s.choose with
  | some (i, e) => s.orderAttempt i e
  | none => s.foundNothing

/-- The lead attempt: the first attempt in flight with no disposition (R122). -/
def State.lead (s : State) : Option Attempt := s.call.attempts.find? Attempt.isWanted

/-- The lead attempt, when a walk for a second attempt may be made beside it: early in its setup, and alone in flight
(R125, R126). -/
def State.walkLead (s : State) : Option Attempt :=
  s.lead.filter fun a => a.step.isEarly && s.call.attempts.length == 1

/-- The walk for a second attempt on a radio; when nothing is found the stagger is OPEN (R125, R126). -/
def State.secondWalk (s : State) (r : Radio) : State :=
  match s.chooseOn r with
  | some (i, e) => s.orderAttempt i e
  | none => s.setStagger .opened

/-- A candidate event for an entry of a radio, or the radio's entry into READY, at the call controller: selection in
SEEKING, the walk of an OPEN stagger in PLACING and RECOVERING (R95, R126). -/
def State.callEvent (s : State) (r : Radio) : State :=
  match s.call.state with
  | .seeking => s.runSelection
  | .placing | .recovering =>
    match s.call.stagger, s.walkLead with
    | .opened, some a => if otherRadio a.radio = r then s.secondWalk r else s
    | .opened, none | .stopped, _ | .counting _, _ => s
  | .idle | .backoff | .connected | .ending | .callback => s

/-- The radio became READY between two states. -/
def becameReady (before after : State) (r : Radio) : Bool := !before.radioReady r && after.radioReady r

/-- The call controller's entries into READY are acted on once its handling is done (R69). -/
def settle (before after : State) : State :=
  let t := if becameReady before after .A then after.callEvent .A else after
  if becameReady before after .B then t.callEvent .B else t

/-- A handling of the call controller, with what it owes at its end (R69). -/
def State.handling (s : State) (f : State → State) : State := settle s (f s)

/-- A radio enters READY by its own event: the reach table, then the call controller, then the others (R54). -/
def State.enterReady (s : State) (r : Radio) : State :=
  (((s.setRadioState r .ready).returnEntries r).callEvent r).readyNeighbours r

/-- A RUNNING survey ends DONE or by its window expiry: the radio returns to READY, which the call controller hears of
before step 3 of R82 (R80, R81, R82, R85). -/
def State.finishSurvey (s : State) (r : Radio) : State :=
  let t := s.surveyEndFirst r true
  if (t.radio r).state = .surveying then
    let t := (((t.setRadioState r .ready).returnEntries r).callEvent r).surveyEndRest r
    (t.post .radio).snoozeTest false
  else t.surveyEndRest r

/-! ### Failure and back-off (R96, R112, R113, R127) -/

/-- The back-off time (R96). -/
def backoffTime (base n : Nat) : Nat := min Config.maxBackoff (base * 2 ^ min (n - 1) 4)

/-- The back-off time of a state. -/
def State.tb (s : State) : Nat := backoffTime s.profile.backoff s.call.failures

/-- The last wanted attempt has failed: BACKOFF, or selection at once (R96). -/
def State.startBackoff (s : State) : State :=
  if 0 < s.tb then (s.mapCall fun c => { c with backoff := some 0 }).setCall .backoff else s.runSelection

/-- The call state after a failure (R113), with the stagger of R124 and R127. -/
def State.afterFailure (s : State) : State :=
  if s.isPlacing then
    match s.lead with
    | some b => s.setStagger (if s.staggerInEffect && b.step.isEarly then .counting 0 else .stopped)
    | none => ((s.setStagger .stopped).giveUpSurplus).startBackoff
  else s

/-- The failure counts rise (R112, step 4). -/
def CallRecord.countFailure (c : CallRecord) (r : Radio) : CallRecord :=
  { c with
    failures := satSucc 255 c.failures
    radioFailures := c.radioFailures.set r (satSucc 255 (c.radioFailures.get r))
    lastFailed := some r }

/-- An attempt with no disposition ends FAILED (R112, R113).  `cancel` says that a CANCEL RECOVERY is queued in the
same handling (R109, R110). -/
def State.failAttempt (s : State) (a : Attempt) (c : Cause) (cancel : Bool) : State :=
  let t := (((s.outcomeEvent a.slot (.failed c)).unpinSlot a.slot).excludeSlot a.slot).mapCall (·.countFailure a.radio)
  let t := t.dropAttemptOrder a.radio a.number
  let t := if cancel then t.enqueue a.radio (.cancel a.number .recovery) else t
  ((t.release a.radio).closeAttempt a (.failed c)).afterFailure

/-! ### Connection, race and drop (R115, R116, R129 to R131, R135) -/

/-- An attempt in ORDERED is withdrawn (R119, R130). -/
def State.withdraw (s : State) (a : Attempt) : State := s.endQuietly a .withdrawn

/-- A taken loser is made surplus (R131). -/
def State.makeSurplus (s : State) (a : Attempt) : State :=
  (s.mapAttempt a.number fun x => { x with disposition := some .surplus, setup := none, answer := none }).enqueue
    a.radio (.cancel a.number .surplus)

/-- The loser of a race is settled by its step (R129, step 3). -/
def State.settleLoser (s : State) (a : Attempt) : State :=
  if a.step = .ordered then s.withdraw a else s.makeSurplus a

/-- An attempt connects (R115, R129); the connection is noted (R138). -/
def State.connectAttempt (s : State) (a : Attempt) : State :=
  let t := s.mapAttempt a.number fun x =>
    { x with step := .connected, connected := some s.now, setup := none, answer := none }
  let t := (t.outcomeEvent a.slot .connected).enterCall a.radio .attempting
  let t := t.mapCall fun c =>
    { c with
      carrying := some (a.radio, a.slot)
      note := some ⟨a.radio, a.slot, a.network, a.generation, a.cell⟩
      failures := 0
      radioFailures := c.radioFailures.set a.radio 0
      everConnected := true }
  let t := ((t.setCall .connected).setStagger .stopped).setRoute (some a.radio)
  (t.call.attempts.filter fun x => x.isWanted && x.number != a.number).foldl (fun s x => s.settleLoser x) t

/-- The connected leg of an attempt drops, and the recovery selection runs at once (R116, R135). -/
def State.dropLeg (s : State) (a : Attempt) (c : Cause) : State :=
  let t := ((s.outcomeEvent a.slot (.dropped c)).unpinSlot a.slot).excludeSlot a.slot
  let t := ((t.release a.radio).closeAttempt a (.dropped c)).mapCall fun x => { x with carrying := none }
  let t := (t.setRoute none).mapCall fun x => { x with recoveries := satSucc 255 x.recoveries }
  (t.setCall .recovering).runSelection

/-! ### The callback part and the end of a call (R98 to R100, R138, R139, R144) -/

/-- The callback part is changed. -/
def State.mapPart (s : State) (f : CallbackPart → CallbackPart) : State :=
  s.mapCall fun c => { c with part := c.part.map f }

/-- A callback leg is up. -/
def State.legUp (s : State) : Bool := s.call.part.any fun p => p.offer.any fun o => o.connected.isSome

/-- A CALLBACK HOLD order with the held values (R139, R144, R145). -/
def Held.order (h : Held) : Order := .callback (.hold h.network h.cell)

/-- The offer is removed, and the window timer restarts at 0 (R140). -/
def CallbackPart.withoutOffer (p : CallbackPart) : CallbackPart :=
  { p with offer := none, timer := 0, counting := true }

/-- The offer is removed in CALLBACK, and the snooze test is applied (R140, R158). -/
def State.removeOffer (s : State) : State := (s.mapPart CallbackPart.withoutOffer).snoozeTest false

/-- The callback part becomes absent and the call IDLE; the supply monitor is told of both at once (R140, R144, R146). -/
def State.endPart (s : State) : State := (s.mapCall fun c => { c with part := none }).setCall .idle

/-- The entry of the noted slot is still the noted cell (R139, step 2). -/
def State.noteStands (s : State) (n : ConnectionNote) : Bool :=
  (s.entry n.slot).any fun e =>
    e.radio == n.radio && e.network == n.network && e.generation == n.generation && e.cell == n.cell

/-- The callback part is formed, and the call becomes CALLBACK (R139). -/
def State.formPart (s : State) (n : ConnectionNote) : State :=
  let stands := s.noteStands n
  let h : Held := ⟨n.radio, n.network, n.generation, n.cell, if stands then some n.slot else none⟩
  let t := if stands then s.pinSlot n.slot else s
  let t := (t.mapCall fun c =>
    { c with part := some ⟨s.profile.window * 1000, 0, true, some h, none⟩ }).snoozeTest false
  (t.enqueue n.radio h.order).setCall .callback

/-- The call returns to CALLBACK after a callback leg; with the held radio lost, it goes on to IDLE (R144). -/
def State.backToCallback (s : State) (p : CallbackPart) : State :=
  let t := s.removeOffer
  match p.held with
  | some h => (t.enqueue h.radio h.order).setCall .callback
  | none => (t.setCall .callback).endPart

/-- Step 4 of R100. -/
def State.afterEnding (s : State) : State :=
  match s.call.part with
  | some p => s.backToCallback p
  | none =>
    match s.call.note with
    | some n =>
      if s.call.everConnected && 0 < s.profile.window && s.radioOpen n.radio then s.formPart n else s.setCall .idle
    | none => s.setCall .idle

/-- The CALL_END record (R100, step 1). -/
def State.recordCallEnd (s : State) (reason : EndReason) : State :=
  s.writeRecord {
    kind := .callEnd, call := s.call.number, attempt := none, radio := none, network := none, generation := none
    cell := none, outcome := none, reason := some reason, duration := (s.call.startTime.map s.since).getD 0
    time := 0, gap := 0 }

/-- An ending completes (R98, R100). -/
def State.completeEnding (s : State) (reason : EndReason) : State :=
  let t := ((s.recordCallEnd reason).clearExclusions).mapCall fun c => { c with carrying := none, ending := none }
  t.afterEnding

/-- The ending is tested for completion (R98). -/
def State.testEnding (s : State) : State :=
  if s.call.state = .ending ∧ s.call.attempts = [] ∧ s.legUp = false then s.completeEnding .callerEnd else s

/-- The call enters ENDING, its ending timer at 0 (R91, R144). -/
def State.enterEnding (s : State) : State := (s.mapCall fun c => { c with ending := some 0 }).setCall .ending

/-- An attempt with a disposition ends (R118, R132), and the ending is tested (R98). -/
def State.endDisposed (s : State) (a : Attempt) (o : RecordOutcome) : State := (s.endQuietly a o).testEnding

/-! ### Callback legs (R143, R144, R146) -/

/-- The CALLBACK_LEG record of an offer's leg (R144, step 2). -/
def State.recordLeg (s : State) (p : CallbackPart) (o : Offer) (out : RecordOutcome) (reason : Option EndReason) :
    State :=
  let h := p.held.filter fun h => h.radio == o.radio
  s.writeRecord {
    kind := .callbackLeg, call := s.call.number, attempt := some 0, radio := some o.radio
    network := h.map (·.network), generation := h.map (·.generation), cell := h.map (·.cell)
    outcome := some out, reason := reason, duration := (o.connected.map s.since).getD 0, time := 0, gap := 0 }

/-- Steps 1 to 3 of R144: the radio is released, the record written, the time connected absent. -/
def State.closeLeg (s : State) (p : CallbackPart) (o : Offer) (out : RecordOutcome) (reason : Option EndReason) :
    State :=
  ((s.release o.radio).recordLeg p o out reason).mapPart fun p =>
    { p with offer := p.offer.map fun o => { o with connected := none } }

/-- Steps 1 to 4 of R144 for a drop. -/
def State.dropCallback (s : State) (p : CallbackPart) (o : Offer) (c : Cause) : State :=
  ((s.closeLeg p o (.dropped c) none).setRoute none).enterEnding

/-- A callback leg is cleared while the call is ENDING it (R144). -/
def State.clearCallback (s : State) (p : CallbackPart) (o : Offer) : State :=
  (s.closeLeg p o .connectedEnded none).testEnding

/-- The held slot is unpinned (R140, R145, R146). -/
def State.unpinHeld (s : State) (p : CallbackPart) : State :=
  match p.held.bind (·.slot) with
  | some i => s.unpinSlot i
  | none => s

/-- The held radio is lost from the part: the slot is unpinned, the held radio and slot become absent (R146). -/
def State.loseHeld (s : State) (p : CallbackPart) : State :=
  ((s.unpinHeld p).mapPart fun p => { p with held := none }).snoozeTest false

/-- A CALLBACK END order goes to the offering radio when it is not the held radio (R140, R145, R146). -/
def State.endOtherOffer (s : State) (p : CallbackPart) : State :=
  match p.offer with
  | some o => if p.held.any fun h => h.radio == o.radio then s else s.enqueue o.radio (.callback .stop)
  | none => s

/-- A CALLBACK END order goes to the held radio (R140, R145). -/
def State.endHold (s : State) (p : CallbackPart) : State :=
  match p.held with
  | some h => s.enqueue h.radio (.callback .stop)
  | none => s

/-- A radio is lost from the callback part by silence, a fault or an ANNOUNCE (R146). -/
def State.losePart (s : State) (r : Radio) (c : Cause) : State :=
  match s.call.part with
  | none => s
  | some p =>
    let held := s.isHeldRadio r
    match s.call.state with
    | .callback =>
      if held then ((s.unpinHeld p).endOtherOffer p).endPart
      else if s.isOfferingRadio r then s.removeOffer
      else s
    | .connected | .ending =>
      match p.offer with
      | some o =>
        if o.radio = r ∧ o.connected.isSome = true then
          let t := s.dropCallback p o c
          (if held then t.loseHeld p else t).testEnding
        else if held then s.loseHeld p
        else s
      | none => if held then s.loseHeld p else s
    | .idle | .seeking | .placing | .backoff | .recovering => s

/-- The attempt or leg of a radio lost by silence, a fault or an ANNOUNCE ends (R114). -/
def State.loseAttempt (s : State) (a : Attempt) (c : Cause) : State :=
  match a.disposition with
  | none => if a.step = .connected then s.dropLeg a c else s.failAttempt a c false
  | some _ => s.endDisposed a (if a.step = .connected then .dropped c else .failed c)

/-- The call controller is told that a radio is lost by silence, a fault or an ANNOUNCE (R57, R62, R64, R114, R146). -/
def State.loseRadio (s : State) (r : Radio) (c : Cause) : State :=
  s.handling fun s =>
    ((s.call.attempts.filter fun a => a.radio == r).foldl (fun s a => s.loseAttempt a c) s).losePart r c

end Sys2Proof.Machine
end

