-- ==== Sys2Proof/Machine/Supervisor.lean ====
section
/-! DEFINITION. The radio supervisor: hearing a radio, recovery from silence, silence, faults, announcements and the
orders that a radio takes (R56, R57, R60 to R64, R67, R68). -/

namespace Sys2Proof.Machine

/-- The order queue is emptied, the take deadline stops and the ORDER condition ends (R57, R63, R64). -/
def State.emptyQueue (s : State) (r : Radio) : State := (s.setQueue r []).mapRadio r fun c => { c with take := none }

/-- Recovery under RESTART (R63); the snooze test comes last (log entry 32, DESIGN CHOICE). -/
def State.recoverRestart (s : State) (r : Radio) : State :=
  ((((s.setRadioState r .starting).emptyQueue r).restartEntries r).tellScheduler r).snoozeTest false

/-- A SILENT radio recovers as the profile's silence recovery mode says (R63). -/
def State.recover (s : State) (r : Radio) : State :=
  match s.profile.recovery with
  | .resume => s.enterReady r
  | .restart => s.recoverRestart r

/-- The silence timer returns to 0 (R56). -/
def State.clearSilence (s : State) (r : Radio) : State := s.mapRadio r fun c => { c with silence := some 0 }

/-- A request other than ANNOUNCE is heard from a radio (R56, R63). -/
def State.heard (s : State) (r : Radio) : State :=
  match (s.radio r).state with
  | .ready | .surveying | .attempting | .inCall => s.clearSilence r
  | .silent => s.recover r
  | .off | .starting | .snooze | .fault => s

/-- An ANNOUNCE that does not restart the context is heard: it never brings about a recovery (R55, R56, R63). -/
def State.heardAnnounce (s : State) (r : Radio) : State :=
  if (s.radio r).state.isWorking then s.clearSilence r else s

/-- Expiry of the silence timer (R62). -/
def State.fallSilent (s : State) (r : Radio) : State :=
  let t := ((s.setRadioState r .silent).cutSurvey r).removeSurvey r
  let t := (t.loseRadio r .radioSilent).holdEntries r
  ((t.setSilentHold r (some 0)).post .radio).snoozeTest false

/-- A radio enters FAULT (R64). -/
def State.enterFault (s : State) (r : Radio) : State :=
  let t := ((s.setRadioState r .fault).loseRadio r .radioFault).emptyQueue r
  let t := (((t.cutSurvey r).tellScheduler r).leaveOwed r).holdEntries r
  (t.post .radio).snoozeTest false

/-- A valid ANNOUNCE restarts the context (R57), and joins a ONCE round (R74).  The snooze test for the change to STARTING
(R158) comes last, after the queue is emptied and the entries are LOST (log entry 32, DESIGN CHOICE). -/
def State.restartContext (s : State) (r : Radio) (gens : List Nat) (identity : Nat) : State :=
  let t := ((s.setRadioState r .starting).loseRadio r .radioFault).emptyQueue r
  let t := (((t.cutSurvey r).tellScheduler r).joinOwed r).restartEntries r
  let t := t.mapRadio r fun c =>
    { c with counts := IntakeCounts.zero, generations := some (generationSetOf gens), identity := some identity }
  t.snoozeTest false

/-- MODULE STATUS with defined fields (R58). -/
def State.moduleStatus (s : State) (r : Radio) (ready fault : Bool) : State :=
  match (s.radio r).state with
  | .starting => if fault then s.enterFault r else if ready then (s.dueFromStart r).enterReady r else s
  | .ready | .surveying | .attempting | .inCall | .snooze => if fault then s.enterFault r else s
  | .silent | .fault | .off => s

/-! ### Orders taken (R67) -/

/-- An attempt is taken: its setup deadline starts (R105). -/
def State.attemptTaken (s : State) (r : Radio) (number : Nat) : State :=
  (s.mapRadio r fun c => { c with take := none }).mapAttempt number fun a =>
    if a.radio = r ∧ a.step = .ordered then { a with step := .taken, setup := some 0 } else a

/-- A SURVEY order is taken (R67, R79); outside READY and SURVEYING it is handed over and no survey starts. -/
def State.surveyTaken (s : State) (r : Radio) (window : Nat) (urgent : Bool) : State :=
  match (s.radio r).state with
  | .ready | .surveying => ((s.setRadioState r .surveying).startSurvey r window urgent).snoozeTest false
  | .off | .starting | .attempting | .inCall | .snooze | .silent | .fault =>
    match s.surveyOf r with
    | .ordered _ => (s.setSurvey r .due).surveyTest
    | .waiting _ | .due | .running _ _ _ => s

/-- An offering radio that is not the held radio has taken a POWER SNOOZE while its offer is RINGING: the offer is
lost (R146). -/
def State.loseRinging (s : State) (r : Radio) : State :=
  if s.call.state == .callback && !s.isHeldRadio r
      && s.call.part.any fun p => p.offer.any fun o => o.radio == r && o.ring == .ringing then
    (s.enqueue r (.callback .stop)).removeOffer
  else s

/-- A POWER SNOOZE order is taken (R67, R81). -/
def State.snoozeTaken (s : State) (r : Radio) : State :=
  match (s.radio r).state with
  | .starting | .ready | .surveying =>
    let t := (((s.setRadioState r .snooze).cutSurvey r).tellScheduler r).holdEntries r
    ((t.loseRinging r).post .radio).snoozeTest false
  | .off | .attempting | .inCall | .snooze | .silent | .fault => s

/-- A POWER WAKE order is taken (R67). -/
def State.wakeTaken (s : State) (r : Radio) : State :=
  match (s.radio r).state with
  | .snooze => ((s.setRadioState r .starting).tellScheduler r).snoozeTest false
  | .off | .starting | .ready | .surveying | .attempting | .inCall | .silent | .fault => s

/-- What taking an order does, by its kind and the radio's state (R67). -/
def State.orderTaken (s : State) (r : Radio) : Order → State
  | .attempt number _ _ _ _ _ => s.attemptTaken r number
  | .cancel _ _ => s
  | .survey window urgent => s.surveyTaken r window urgent
  | .power .snooze => s.snoozeTaken r
  | .power .wake => s.wakeTaken r
  | .callback _ => s

/-- TAKE ORDER in a state other than OFF and SILENT (R67). -/
def State.takeOrder (s : State) (r : Radio) : State × Response :=
  match (s.radio r).queue with
  | [] => (s, ⟨.empty, .none⟩)
  | o :: rest => ((s.setQueue r rest).orderTaken r o, ⟨.ok, .order o⟩)

/-- Expiry of the take deadline (R68, R105): the ATTEMPT order is removed and its attempt fails TAKE_TIMEOUT. -/
def State.takeTimeout (s : State) (r : Radio) : State :=
  let number := (s.radio r).queue.findSome? fun o => match o with
    | .attempt n _ _ _ _ _ => some n
    | .cancel _ _ | .survey _ _ | .power _ | .callback _ => none
  let t := (s.dropOrders r .attempt).mapRadio r fun c => { c with take := none }
  match number.bind t.attempt with
  | some a => t.handling fun t => t.failAttempt a .takeTimeout false
  | none => t

/-! ### Cell reports (R23, R28, R59) -/

/-- One report of a taken CELL REPORT: checks, table, counts, and the candidate event (R20, R23, R28). -/
def State.takeReport (s : State) (r : Radio) (x : RawReport) : State × ReportOutcome × Bool :=
  let v := checkReport (s.radio r).generations x
  let y : State × ReportOutcome × Bool := match v.1 with
    | .passed c => s.meetTable r c
    | .dropped o => (s, o, false)
  let t := y.1.mapRadio r fun c => { c with counts := c.counts.add y.2.1 v.2 }
  (if y.2.2 then t.callEvent r else t, y.2.1, v.2 != 0)

/-- The reports of a taken CELL REPORT, one at a time, in order, with their outcomes (R23). -/
def State.takeReports (s : State) (r : Radio) : List RawReport → State × List (ReportOutcome × Bool)
  | [] => (s, [])
  | x :: rest =>
    let y := s.takeReport r x
    let z := y.1.takeReports r rest
    (z.1, y.2 :: z.2)

end Sys2Proof.Machine
end

