-- ==== Sys2Proof/Machine/Views.lean ====
section
/-! DEFINITION. What the read requests return (R21, R48, R70, R86, R101, R162, R167, R174).  None of them changes the
state. -/

namespace Sys2Proof.Machine

/-- An entry summary (R167). -/
def summaryOf (x : Nat × Entry) : Summary where
  slot := x.1
  radio := x.2.radio
  network := x.2.network
  generation := x.2.generation
  cell := x.2.cell
  state := x.2.state
  tier := x.2.tier
  score := x.2.score

/-- Items of two lists in turn, the first list first; when one is used up, the rest of the other. -/
def takeTurns {α : Type} : Nat → List α → List α → List α
  | 0, _, _ => []
  | _ + 1, [], ys => ys
  | n + 1, x :: xs, ys => x :: takeTurns n ys xs

/-- The ALTERNATE order from a start rank (R167): it begins with the sub-list of the entry at the start rank. -/
def alternateFrom (l : List (Nat × Entry)) : List (Nat × Entry) :=
  match l with
  | [] => []
  | x :: _ =>
    takeTurns l.length (l.filter fun y => y.2.radio == x.2.radio) (l.filter fun y => y.2.radio != x.2.radio)

/-- READ RANKED over a list, from a start rank, in an order (R167). -/
def readList (l : List (Nat × Entry)) (start count : Nat) (o : ReadOrder) : Response :=
  let tail := l.drop start
  let items := match o with
    | .rank => tail
    | .alternate => alternateFrom tail
  ⟨.ok, .ranked l.length ((items.take count).map summaryOf)⟩

/-- The start rank and count are in range (R167). -/
def rankedInRange (start count : Nat) : Bool := start ≤ 47 && 1 ≤ count && count ≤ 8

/-- READ RANKED from the station port (R167). -/
def State.readRankedStation (s : State) (start count order : Nat) : Response :=
  match readOrderOf order with
  | some o => if rankedInRange start count then readList s.ranked start count o else ⟨.range, .none⟩
  | none => ⟨.range, .none⟩

/-- READ RANKED from a radio port: the radio's own entries, in rank order (R167). -/
def State.readRankedRadio (s : State) (r : Radio) (start count : Nat) : Response :=
  if rankedInRange start count then readList (s.ranked.filter fun x => x.2.radio == r) start count .rank
  else ⟨.range, .none⟩

/-- READ ENTRY (R21). -/
def State.readEntry (s : State) (slot : Nat) : Response :=
  if slot ≤ 47 then ⟨.ok, .entry ((s.entry slot).map fun e => (e, s.rankOf slot))⟩ else ⟨.range, .none⟩

/-- A queued order as READ RADIO lists it (R70). -/
def queueItem (o : Order) : OrderKind × Option Nat :=
  match o with
  | .attempt n _ _ _ _ _ => (.attempt, some n)
  | .cancel n _ => (.cancel, some n)
  | .survey _ _ => (.survey, none)
  | .power _ => (.power, none)
  | .callback _ => (.callback, none)

/-- The fields of READ RADIO (R70). -/
def State.radioView (s : State) (r : Radio) : RadioView :=
  let c := s.radio r
  { radio := r
    state := c.state
    generations := c.generations
    identity := c.identity
    silence := c.silence.map (s.profile.silenceTime - ·)
    start := c.start.map (Config.startTime - ·)
    queue := c.queue.map queueItem
    counts := c.counts
    failures := s.call.radioFailures.get r }

/-- READ RADIO (R70). -/
def State.readRadio (s : State) (radio : Nat) : Response :=
  match radioOf radio with
  | some r => ⟨.ok, .radio (s.radioView r)⟩
  | none => ⟨.range, .none⟩

/-- An attempt as READ CALL shows it (R101). -/
def State.attemptView (s : State) (a : Attempt) : AttemptView where
  number := a.number
  radio := a.radio
  slot := a.slot
  step := a.step
  sinceOrdered := s.since a.ordered
  disposition := a.disposition

/-- The callback part as READ CALL shows it (09_callback 9.6). -/
def callbackView (p : CallbackPart) : CallbackView where
  length := p.length
  remaining := p.length - p.timer
  counting := p.counting
  held := p.held
  offer := p.offer

/-- Milliseconds of call, absent in IDLE and CALLBACK (R101). -/
def State.callRunning (s : State) : Option Nat :=
  match s.call.state with
  | .idle | .callback => none
  | .seeking | .placing | .backoff | .connected | .recovering | .ending => s.call.startTime.map s.since

/-- Time left of the stagger timer (R101, R122). -/
def State.staggerLeft (s : State) : Option Nat :=
  match s.call.stagger with
  | .counting ms => some (s.profile.stagger * 1000 - ms)
  | .stopped | .opened => none

/-- READ CALL (R101). -/
def State.readCall (s : State) : Response :=
  ⟨.ok, .call {
    state := s.call.state
    number := s.call.number
    running := s.callRunning
    nextAttempt := s.call.nextAttempt
    attempts := s.call.attempts.map s.attemptView
    failures := s.call.failures
    radioFailures := s.call.radioFailures
    lastFailed := s.call.lastFailed
    carrying := s.call.carrying
    everConnected := s.call.everConnected
    recoveries := s.call.recoveries
    backoff := s.call.backoff.map (s.tb - ·)
    ending := s.call.ending.map (Config.endingTime - ·)
    stagger := s.staggerLeft
    route := s.call.route
    part := s.call.part.map callbackView }⟩

/-- A supply line as READ STATUS shows it (R162). -/
def lineView (x : SupplyLine) : LineView where
  raw := x.raw
  qualified := x.qualified
  remaining := x.timer.map (Config.qualifyTime - ·)

/-- The urgent mark, present in ORDERED and RUNNING (R72). -/
def SurveyState.mark : SurveyState → Option Bool
  | .ordered u => some u
  | .running u _ _ => some u
  | .waiting _ | .due => none

/-- The window remaining, in RUNNING (R86). -/
def SurveyState.windowLeft : SurveyState → Option Nat
  | .running _ w t => some (w + Config.windowGrace - t)
  | .waiting _ | .due | .ordered _ => none

/-- A radio's survey fields of READ STATUS; under ALTERNATE a WAITING radio shows the shared pause (R86). -/
def State.surveyView (s : State) (r : Radio) : SurveyView where
  state := s.surveyOf r
  urgent := (s.surveyOf r).mark
  window := (s.surveyOf r).windowLeft
  pause := if (s.surveyOf r).isWaiting then (s.surveyOf r).ownPause.or s.survey.shared else none
  owed := if s.survey.mode = .once then some (s.survey.owed.get r) else none

/-- READ STATUS (R162, R86, R174). -/
def State.readStatus (s : State) : Response :=
  ⟨.ok, .status {
    condition := s.supply.condition
    lowv := lineView s.supply.lowv
    critv := lineView s.supply.critv
    mode := s.survey.mode
    effective := s.effMode
    onceDone := s.survey.onceDone
    arrangement := s.effArrangement
    urgent := s.survey.urgent
    operate := s.survey.operate
    pause := s.survey.pause
    operatePreload := s.survey.operatePreload
    pausePreload := s.survey.pausePreload
    last := s.survey.last
    surveys := ⟨s.surveyView .A, s.surveyView .B⟩
    linkCheck := ⟨s.linkCheck.a.map (Config.linkCheckTime - ·), s.linkCheck.b.map (Config.linkCheckTime - ·)⟩ }⟩

/-- The index lies in the locked region (R49). -/
def Preferences.locked (l : Preferences) (i : Nat) : Bool :=
  match l.lock with
  | some ⟨w, .lower⟩ => i < w
  | some ⟨w, .upper⟩ => w ≤ i
  | none => false

/-- The content of an index (R41). -/
def Preferences.at (l : Preferences) (i : Nat) : Option Preference := l.list.toList[i]?.join

/-- READ PREFERENCE (R48). -/
def State.readPreference (s : State) (i : Nat) : Response :=
  if i ≤ 15 then ⟨.ok, .prefRead i (s.prefs.at i) (s.prefs.locked i) s.prefs.lock⟩ else ⟨.range, .none⟩

end Sys2Proof.Machine
end

