-- ==== Sys2Proof/Machine/Requests.lean ====
section
/-! DEFINITION. The port interface: select periods, the pending response, who may send a request, and what being heard
does before the owner handles it (R55, R56, R163, R166, R171, R176). -/

namespace Sys2Proof.Machine

/-- An owner's handling of a request: the state after it, and the response. -/
abbrev Handler := State → State × Response

/-! ### Select periods (R163, R176) -/

/-- Select deasserts at the end of an ignored period: nothing else of the port changes (R176). -/
def PortState.deselect (x : PortState) : PortState := { x with selected := false, ignoring := false, shiftOut := [] }

/-- Select deasserts: the pending response becomes nothing (R163). -/
def PortState.endPeriod (x : PortState) : PortState :=
  { x with selected := false, ignoring := false, shiftOut := [], response := none }

/-- The bytes that a select period begins to shift out (R163): the pending response, or the empty response. -/
def PortState.frame (x : PortState) : List Byte := (x.response.getD emptyResponse).frame

/-- Select asserts (R163).  Nothing is shifted out but 0xFF while the reset input is asserted (R176), and a line that
stands asserted has no assertion. -/
def PortState.assert (reset : Bool) (x : PortState) : PortState :=
  if x.selected then x else { x with selected := true, shiftOut := if reset then [] else x.frame }

/-- The end of a select period on a port: what it brings about is handled then, and the attention lines follow.  While
the reset input is asserted, and in a period that stood asserted at its release, nothing is taken (R163, R173, R176). -/
def State.period (s : State) (p : Port) (f : State → State) : State :=
  if s.resetAsserted then s.mapPort p PortState.deselect
  else if (s.port p).ignoring then (s.mapPort p PortState.deselect).followLines
  else (f (s.mapPort p PortState.endPeriod)).followLines

/-- An event of the part's blocks, after which the attention lines follow.  None comes while the reset input is asserted
(R173, R176). -/
def State.event (s : State) (f : State → State) : State := if s.resetAsserted then s else (f s).followLines

/-! ### Answers -/

/-- A response with no field. -/
def only (c : RespCode) : Response := ⟨c, .none⟩

/-- A handling that changes nothing. -/
def reply (r : Response) : Handler := fun s => (s, r)

/-- A handling that answers with what the state holds, and changes nothing. -/
def readout (f : State → Response) : Handler := fun s => (s, f s)

/-- The response becomes the port's pending response (R163). -/
def State.respond (s : State) (p : Port) (r : Response) : State := s.mapPort p fun x => { x with response := some r }

/-- A request is handled and answered. -/
def State.answer (s : State) (p : Port) (h : Handler) : State := (h s).1.respond p (h s).2

/-- The response of link-check mode (R171). -/
def patternResponse : Response := ⟨.pattern, .patternBytes⟩

/-! ### Requests by port (R55, R166) -/

/-- A request on a radio port: PATTERN in link-check mode, else the handling (R166, R171).  `hear` is what being heard
does (R56). -/
def onRadioPort (hear : Radio → State → State) (h : Radio → Handler) (r : Radio) : Handler := fun s =>
  if (s.linkCheck.get r).isSome then (hear r s, patternResponse) else h r s

/-- A request other than ANNOUNCE that the radio supervisor handles or passes on: NOT_ANNOUNCED in OFF, else heard, with
any recovery, before it is handled (R55, R56). -/
def announced (h : Radio → Handler) (r : Radio) : Handler := fun s =>
  if (s.radio r).state = .off then (s, only .notAnnounced) else h r (s.heard r)

/-- A request that a radio port may not send: heard, and answered DENIED (R166). -/
def denied (r : Radio) : Handler := fun s => (s.heard r, only .denied)

/-- A request that both sorts of port may send (R166). -/
def State.request (s : State) (p : Port) (station : Handler) (radio : Radio → Handler) : State :=
  s.period p fun s =>
    match p with
    | .station => s.answer p station
    | .radio r => s.answer p (onRadioPort (fun r s => s.heard r) radio r)

/-- A request of the station port alone (R166). -/
def State.stationRequest (s : State) (p : Port) (h : Handler) : State := s.request p h denied

/-- A request of the radio ports alone (R166). -/
def State.radioRequest (s : State) (p : Port) (h : Radio → Handler) : State :=
  s.request p (reply (only .denied)) (announced h)

end Sys2Proof.Machine
end

