-- ==== Sys2Proof/Machine/Events.lean ====
section
/-! DEFINITION. The events of the supply lines and of the part's own timers.  An expiry command acts when its timer is
running (or its entry is in the state the event concerns), whatever the timer's count (log entry 3); the clock raises the
same events when the count is reached (Clock.lean). -/

namespace Sys2Proof.Machine

/-! ### Supply lines (R156) -/

/-- A raw level changes (R156). -/
def State.lineChanged (s : State) (l : Line) (level : Bool) : State := s.setLine l ((s.supply.line l).change level)

/-- SUPPLY_LINE_CHANGE (R156); while the reset input is asserted the raw level alone follows the line (R155). -/
def execSupplyLineChange (l : Line) (level : Bool) (s : State) : Host.Outcome State Fault Refusal :=
  .next (if s.resetAsserted then s.setLine l { s.supply.line l with raw := level }
    else (s.lineChanged l level).followLines)

/-- A qualifying timer expires (R156). -/
def State.qualifyExpired (s : State) (l : Line) : State := if (s.supply.line l).timer.isSome then s.qualify l else s

/-- QUALIFYING_TIMER_EXPIRY (R156, R157). -/
def execQualifyingTimerExpiry (l : Line) (s : State) : Host.Outcome State Fault Refusal :=
  .next (s.event (·.qualifyExpired l))

/-! ### Radio timers (R60, R62, R68) -/

/-- A silence timer expires (R62). -/
def State.silenceExpired (s : State) (r : Radio) : State := if (s.radio r).silence.isSome then s.fallSilent r else s

/-- SILENCE_TIMER_EXPIRY (R62). -/
def execSilenceTimerExpiry (r : Radio) (s : State) : Host.Outcome State Fault Refusal :=
  .next (s.event (·.silenceExpired r))

/-- A start timer expires (R60). -/
def State.startExpired (s : State) (r : Radio) : State := if (s.radio r).start.isSome then s.enterFault r else s

/-- START_TIMER_EXPIRY (R60). -/
def execStartTimerExpiry (r : Radio) (s : State) : Host.Outcome State Fault Refusal := .next (s.event (·.startExpired r))

/-- A take deadline expires (R68). -/
def State.takeExpired (s : State) (r : Radio) : State := if (s.radio r).take.isSome then s.takeTimeout r else s

/-- TAKE_DEADLINE_EXPIRY (R68). -/
def execTakeDeadlineExpiry (r : Radio) (s : State) : Host.Outcome State Fault Refusal :=
  .next (s.event (·.takeExpired r))

/-! ### Table timers (R6, R7, R10, R14, R16) -/

/-- A silent-hold time reaches the lost time (R10). -/
def State.silentHoldExpired (s : State) (r : Radio) : State :=
  if (s.table.silentHold.get r).isSome then s.silentHoldReached r else s

/-- SILENT_HOLD_EXPIRY (R10). -/
def execSilentHoldExpiry (r : Radio) (s : State) : Host.Outcome State Fault Refusal :=
  .next (s.event (·.silentHoldExpired r))

/-- The age of an entry reaches a threshold: an unpinned entry in a state of the threshold has its age brought to it,
and every threshold then reached is acted on (R5). -/
def Entry.ageReached (p : Profile) (applies : EntryState → Bool) (threshold : Nat) (e : Entry) : Option Entry :=
  if !e.pin && applies e.state then ({ e with age := max e.age threshold } : Entry).thresholds p else some e

/-- FRESH or STEADY (R6). -/
def EntryState.mayFade : EntryState → Bool
  | .ranked .fresh | .ranked .steady => true
  | .ranked .fading | .held _ | .lost => false

/-- FADING (R6). -/
def EntryState.mayBeLost : EntryState → Bool
  | .ranked .fading => true
  | .ranked .fresh | .ranked .steady | .held _ | .lost => false

/-- LOST (R7). -/
def EntryState.mayBeReleased : EntryState → Bool
  | .lost => true
  | .ranked _ | .held _ => false

/-- The fade time is reached by the entry of a slot (R6). -/
def State.fadeReached (s : State) (i : Nat) : State :=
  s.mapSlot i (·.ageReached s.profile EntryState.mayFade s.profile.fadeMs)

/-- FADE_TIME_REACHED (R6). -/
def execFadeTimeReached (i : Nat) (s : State) : Host.Outcome State Fault Refusal := .next (s.event (·.fadeReached i))

/-- The lost time is reached by the entry of a slot (R6). -/
def State.lostReached (s : State) (i : Nat) : State :=
  s.mapSlot i (·.ageReached s.profile EntryState.mayBeLost s.profile.lostMs)

/-- LOST_TIME_REACHED (R6). -/
def execLostTimeReached (i : Nat) (s : State) : Host.Outcome State Fault Refusal := .next (s.event (·.lostReached i))

/-- Four times the lost time is reached by the entry of a slot (R7). -/
def State.releaseReached (s : State) (i : Nat) : State :=
  s.mapSlot i (·.ageReached s.profile EntryState.mayBeReleased s.profile.releaseMs)

/-- ENTRY_RELEASE (R7). -/
def execEntryRelease (i : Nat) (s : State) : Host.Outcome State Fault Refusal := .next (s.event (·.releaseReached i))

/-- An exclusion ends, and its candidate event is sent (R14, R20). -/
def State.exclusionExpired (s : State) (i : Nat) : State :=
  match s.entry i with
  | some e =>
    if e.excludedFor.isSome then
      (s.mapSlot i fun e => some { e with excludedFor := none }).callEvent e.radio
    else s
  | none => s

/-- EXCLUSION_EXPIRY (R14). -/
def execExclusionExpiry (i : Nat) (s : State) : Host.Outcome State Fault Refusal := .next (s.event (·.exclusionExpired i))

/-- CREDIT_RELAX_EXPIRY (R16). -/
def execCreditRelaxExpiry (s : State) : Host.Outcome State Fault Refusal := .next (s.event (·.relaxCredits))

/-! ### Survey timers (R81, R83) -/

/-- The window timer of a RUNNING survey expires: the survey ends OVERRUN, and the radio returns to READY (R81). -/
def State.windowExpired (s : State) (r : Radio) : State := if (s.surveyOf r).isRunning then s.finishSurvey r else s

/-- WINDOW_TIMER_EXPIRY (R81). -/
def execWindowTimerExpiry (r : Radio) (s : State) : Host.Outcome State Fault Refusal := .next (s.event (·.windowExpired r))

/-- A pause that is counting. -/
def Pause.counts (p : Pause) : Bool := !p.held

/-- A radio's own pause expires (R83). -/
def State.ownPauseExpired (s : State) (r : Radio) : State :=
  if (s.surveyOf r).ownPause.any Pause.counts then s.pauseExpired r else s

/-- PAUSE_EXPIRY (R83). -/
def execPauseExpiry (r : Radio) (s : State) : Host.Outcome State Fault Refusal := .next (s.event (·.ownPauseExpired r))

/-- The shared pause expires (R83). -/
def State.sharedExpired (s : State) : State := if s.survey.shared.any Pause.counts then s.sharedPauseExpired else s

/-- SHARED_PAUSE_EXPIRY (R83). -/
def execSharedPauseExpiry (s : State) : Host.Outcome State Fault Refusal := .next (s.event (·.sharedExpired))

/-! ### Call timers (R97, R99, R109, R110, R125, R140) -/

/-- The back-off ends, and selection runs (R97). -/
def State.backoffEnds (s : State) : State :=
  s.handling fun s => (s.mapCall fun c => { c with backoff := none }).runSelection

/-- The back-off timer expires (R97). -/
def State.backoffExpired (s : State) : State := if s.call.backoff.isSome then s.backoffEnds else s

/-- BACKOFF_EXPIRY (R97). -/
def execBackoffExpiry (s : State) : Host.Outcome State Fault Refusal := .next (s.event (·.backoffExpired))

/-- An attempt still in flight at the ending-timer expiry (R99). -/
def State.giveUpAttempt (s : State) (a : Attempt) : State :=
  let t := (s.recordAttempt a .cleared (some .endingTimeout)).removeAttempt a.number
  let t := (t.unpinSlot a.slot).release a.radio
  if t.hasCancelOrder a.radio a.number then t else t.enqueue a.radio (.cancel a.number .endingTimeout)

/-- A callback leg still up at the ending-timer expiry (R99, R144). -/
def State.giveUpLeg (s : State) : State :=
  match s.call.part with
  | some p =>
    match p.offer with
    | some o =>
      if o.connected.isSome then
        let t := s.closeLeg p o .cleared (some .endingTimeout)
        if t.hasCallbackEnd o.radio then t else t.enqueue o.radio (.callback .stop)
      else s
    | none => s
  | none => s

/-- The ending timer runs out (R99). -/
def State.endingTimesOut (s : State) : State :=
  s.handling fun s => ((s.call.attempts.foldl State.giveUpAttempt s).giveUpLeg).completeEnding .endingTimeout

/-- The ending timer expires (R99). -/
def State.endingExpired (s : State) : State := if s.call.ending.isSome then s.endingTimesOut else s

/-- ENDING_TIMER_EXPIRY (R99). -/
def execEndingTimerExpiry (s : State) : Host.Outcome State Fault Refusal := .next (s.event (·.endingExpired))

/-- An attempt's deadline expires (R109, R110): the attempt fails with a CANCEL RECOVERY. -/
def State.deadlineExpired (s : State) (number : Nat) (deadline : Attempt → Option Nat) (c : Cause) : State :=
  match s.attempt number with
  | some a => if (deadline a).isSome then s.handling fun s => s.failAttempt a c true else s
  | none => s

/-- SETUP_DEADLINE_EXPIRY (R109). -/
def execSetupDeadlineExpiry (number : Nat) (s : State) : Host.Outcome State Fault Refusal :=
  .next (s.event (·.deadlineExpired number (·.setup) .setupTimeout))

/-- ANSWER_DEADLINE_EXPIRY (R110). -/
def execAnswerDeadlineExpiry (number : Nat) (s : State) : Host.Outcome State Fault Refusal :=
  .next (s.event (·.deadlineExpired number (·.answer) .answerTimeout))

/-- The stagger timer runs out: the restricted walk on the other radio, or OPEN (R125). -/
def State.staggerEnds (s : State) : State :=
  match s.walkLead with
  | some a => s.secondWalk (otherRadio a.radio)
  | none => s.setStagger .opened

/-- The stagger timer expires (R125). -/
def State.staggerExpired (s : State) : State :=
  match s.call.stagger with
  | .counting _ => s.staggerEnds
  | .stopped | .opened => s

/-- STAGGER_TIMER_EXPIRY (R125). -/
def execStaggerTimerExpiry (s : State) : Host.Outcome State Fault Refusal := .next (s.event (·.staggerExpired))

/-- The callback window runs out (R140). -/
def State.windowRunsOut (s : State) (p : CallbackPart) : State :=
  ((((s.endOtherOffer p).mapPart fun x => { x with offer := none }).endHold p).unpinHeld p).endPart

/-- The callback window expires (R140). -/
def State.callbackExpired (s : State) : State :=
  match s.call.state, s.call.part with
  | .callback, some p => if p.counting then s.windowRunsOut p else s
  | .callback, none | .idle, _ | .seeking, _ | .placing, _ | .backoff, _ | .connected, _ | .recovering, _
  | .ending, _ => s

/-- CALLBACK_WINDOW_EXPIRY (R140). -/
def execCallbackWindowExpiry (s : State) : Host.Outcome State Fault Refusal := .next (s.event (·.callbackExpired))

end Sys2Proof.Machine
end

