-- ==== Sys2Proof/Machine/Ports.lean ====
section
/-! DEFINITION. The commands of the port interface and the notice unit: resets, select periods, NO-OP, notices, the
ranked list, link-check mode and status (chapter 12). -/

namespace Sys2Proof.Machine

/-! ### The reset input (R176) -/

/-- POWER_ON_RESET: the reset input is released, and every block holds its power-on values, with the input lines as they
stand (R176, R155). -/
def execPowerOnReset (s : State) : Host.Outcome State Fault Refusal :=
  .next (State.powerOn s.supply.lowv.raw s.supply.critv.raw
    ⟨s.ports.station.selected, s.ports.a.selected, s.ports.b.selected⟩ s.pending)

/-- A port while the reset input is asserted: attention deasserted, 0xFF shifted out (R173, R176). -/
def PortState.quiet (x : PortState) : PortState := { x with attention := false, shiftOut := [] }

/-- RESET_INPUT_ASSERTED: the attention and voice-route lines deassert, and the ports take no request until the release
(R176); what the blocks hold until then cannot be seen (log entry 8). -/
def execResetInputAsserted (s : State) : Host.Outcome State Fault Refusal :=
  .next { s with
    resetAsserted := true
    ports := ⟨s.ports.station.quiet, s.ports.a.quiet, s.ports.b.quiet⟩
    call := { s.call with lineA := false, lineB := false } }

/-! ### Select periods without a request (R163, R165) -/

/-- SELECT_ASSERT (R163). -/
def execSelectAssert (p : Port) (s : State) : Host.Outcome State Fault Refusal :=
  .next (s.mapPort p (PortState.assert s.resetAsserted))

/-- EMPTY_SELECT_PERIOD: the pending response becomes nothing, and nothing more happens (R163). -/
def execEmptySelectPeriod (p : Port) (s : State) : Host.Outcome State Fault Refusal := .next (s.period p id)

/-- FRAME_ERROR: no effect, and not heard (R165). -/
def execFrameError (p : Port) (s : State) : Host.Outcome State Fault Refusal :=
  .next (s.period p fun s => s.respond p (only .frameError))

/-- UNKNOWN_REQUEST: no effect, and not heard (R165). -/
def execUnknownRequest (p : Port) (s : State) : Host.Outcome State Fault Refusal :=
  .next (s.period p fun s => s.respond p (only .unknownRequest))

/-! ### Requests of every port (R166, R167, R172) -/

/-- NO-OP (R166). -/
def execNoOp (p : Port) (s : State) : Host.Outcome State Fault Refusal :=
  .next (s.request p (reply (only .ok)) (announced fun _ => reply (only .ok)))

/-- READ NOTICE (R172). -/
def execReadNotice (p : Port) (s : State) : Host.Outcome State Fault Refusal :=
  .next (s.request p (·.takeNotice p) (announced fun _ s => s.takeNotice p))

/-- SET NOTICE ENABLES (R172). -/
def execSetNoticeEnables (p : Port) (kinds : Nat) (s : State) : Host.Outcome State Fault Refusal :=
  .next (s.request p (·.enableNotices p kinds) (announced fun _ s => s.enableNotices p kinds))

/-- READ RANKED (R167). -/
def execReadRanked (p : Port) (start count order : Nat) (s : State) : Host.Outcome State Fault Refusal :=
  .next (s.request p (readout fun s => s.readRankedStation start count order)
    (announced fun r => readout fun s => s.readRankedRadio r start count))

/-! ### Link-check mode (R169) -/

/-- Link-check mode of a radio's port turns on with its timer at 0, or off (R169). -/
def State.setLinkCheck (s : State) (r : Radio) (v : Option Nat) : State := { s with linkCheck := s.linkCheck.set r v }

/-- LINK CHECK at the station (R169). -/
def State.linkCheckRequest (s : State) (port setting : Nat) : State × Response :=
  if s.call.state ≠ .idle then (s, only .busy)
  else match radioOf port, flagOf setting with
    | some r, some on => (s.setLinkCheck r (if on then some 0 else none), only .ok)
    | _, _ => (s, only .range)

/-- LINK CHECK (R169). -/
def execLinkCheck (p : Port) (port setting : Nat) (s : State) : Host.Outcome State Fault Refusal :=
  .next (s.stationRequest p (·.linkCheckRequest port setting))

/-- The link-check timer of a radio's port expires (R169). -/
def State.linkCheckExpired (s : State) (r : Radio) : State := s.setLinkCheck r none

/-- LINK_CHECK_TIMER_EXPIRY (R169). -/
def execLinkCheckTimerExpiry (r : Radio) (s : State) : Host.Outcome State Fault Refusal :=
  .next (s.event (·.linkCheckExpired r))

/-! ### Soft reset and status (R174, R175) -/

/-- A port at soft reset: the pending set is emptied, the rest kept (R172). -/
def PortState.softReset (x : PortState) : PortState := { x with pending := NoticeSet.empty }

/-- RADIO is posted when either radio was not OFF before the soft reset (R71). -/
def State.postSoftReset (s before : State) : State :=
  if (before.radio .A).state ≠ .off ∨ (before.radio .B).state ≠ .off then s.post .radio else s

/-- The soft reset (R175), each block by its own rule (R22, R71, R72, R102, R137, R154, R169, R172). -/
def State.softReset (s : State) : State :=
  (({ s with
      table := ReachTable.initial
      radios := ⟨RadioContext.initial, RadioContext.initial⟩
      call := CallRecord.initial
      survey := s.survey.softReset s.profile
      linkCheck := ⟨none, none⟩
      ports := ⟨s.ports.station.softReset, s.ports.a.softReset, s.ports.b.softReset⟩ } : State).testJournal).postSoftReset
    s

/-- RESET PART at the station (R175). -/
def State.resetRequest (s : State) : State × Response :=
  if s.call.state = .idle ∨ s.call.state = .callback then (s.softReset, only .ok) else (s, only .busy)

/-- RESET PART (R175). -/
def execResetPart (p : Port) (s : State) : Host.Outcome State Fault Refusal := .next (s.stationRequest p (·.resetRequest))

/-- READ STATUS (R174). -/
def execReadStatus (p : Port) (s : State) : Host.Outcome State Fault Refusal :=
  .next (s.stationRequest p (readout (·.readStatus)))

end Sys2Proof.Machine
end

