-- ==== Sys2Proof/Machine/StationRequests.lean ====
section
/-! DEFINITION. The station's requests on the profile, the preference list, the survey mode, the table, the radios and
the journal (chapters 1, 3, 4, 5, 10 and 12). -/

namespace Sys2Proof.Machine

/-! ### The profile (R168) -/

/-- The count of a running silence timer is compared with the silence time, and expires at or above it (R61). -/
def State.testSilence (s : State) (r : Radio) : State :=
  match (s.radio r).silence with
  | some t => if s.profile.silenceTime ≤ t then s.fallSilent r else s
  | none => s

/-- A profile is taken, as it reaches each block (R168: scheduler R76, R84; table R10, R12, R16, R38; radios R61). -/
def State.takeProfile (s : State) (p : Profile) : State :=
  let t := s.reform fun s =>
    { s with
      profile := p
      survey := { s.survey with operatePreload := some p.operate, pausePreload := some p.pause } }
  let t := t.retakeProfile s.profile.biases
  let t : State := { t with table := { t.table with relax := 0 } }
  (((t.testSilentHold .A).testSilentHold .B).testSilence .A).testSilence .B

/-- SET PROFILE at the station (R168). -/
def State.profileRequest (s : State) (f : ProfileFields) : State × Response :=
  if s.call.state ≠ .idle then (s, only .busy)
  else match profileOf f with
    | some p => (s.takeProfile p, ⟨.ok, .clamps (clampedFields f p)⟩)
    | none => (s, only .range)

/-- SET PROFILE (R168). -/
def execSetProfile (p : Port) (f : ProfileFields) (s : State) : Host.Outcome State Fault Refusal :=
  .next (s.stationRequest p (·.profileRequest f))

/-- READ PROFILE (R168). -/
def execReadProfile (p : Port) (s : State) : Host.Outcome State Fault Refusal :=
  .next (s.stationRequest p (readout fun s => ⟨.ok, .profile s.profile⟩))

/-! ### The preference list (R43 to R49) -/

/-- The code is held at an index other than the one named (R43, step 4). -/
def Preferences.duplicate (l : Preferences) (i code : Nat) : Bool :=
  l.list.toList.zipIdx.any fun x => x.2 != i && x.1.any fun c => c.code == code

/-- The list with an index's content replaced. -/
def Preferences.put (l : Preferences) (i : Nat) (c : Option Preference) : Preferences :=
  if h : i < 16 then { l with list := l.list.set i c h } else l

/-- The tier events of a write (R44 to R46): the codes whose tier it changes, with their new tiers. -/
def tierChanges (old new : Preferences) (i : Nat) : List Preference :=
  let before := (old.at i).toList.map (·.code)
  let after := ((new.at i).toList.map (·.code)).filter fun c => !before.contains c
  ((before ++ after).filter fun c => tierOf old c != tierOf new c).map fun c => ⟨c, tierOf new c⟩

/-- A taken write sets the content of an index, and its tier events reach the table (R44, R45, R46). -/
def State.writeIndex (s : State) (i : Nat) (c : Option Preference) : State :=
  let new := s.prefs.put i c
  ({ s with prefs := new } : State).tierEvents (tierChanges s.prefs new i)

/-- Steps 3 to 5 of R43, with the empty indication no. -/
def State.writeCode (s : State) (i code tier : Nat) : State × Response :=
  if 999999 < code then (s, only .range)
  else if s.prefs.duplicate i code then (s, only .duplicate)
  else
    let c : Preference := ⟨code, min 3 tier⟩
    (s.writeIndex i (some c), ⟨.ok, .prefWritten i (some c) (decide (3 < tier))⟩)

/-- WRITE PREFERENCE at the preference list (R43). -/
def State.writeRequest (s : State) (i empty code tier : Nat) : State × Response :=
  match flagOf empty with
  | none => (s, only .range)
  | some e =>
    if 15 < i then (s, only .range)
    else if s.prefs.locked i then (s, only .protectedCode)
    else if e then (s.writeIndex i none, ⟨.ok, .prefWritten i none false⟩)
    else s.writeCode i code tier

/-- WRITE PREFERENCE (R43). -/
def execWritePreference (p : Port) (i empty code tier : Nat) (s : State) : Host.Outcome State Fault Refusal :=
  .next (s.stationRequest p (·.writeRequest i empty code tier))

/-- READ PREFERENCE (R48). -/
def execReadPreference (p : Port) (i : Nat) (s : State) : Host.Outcome State Fault Refusal :=
  .next (s.stationRequest p (readout (·.readPreference i)))

/-- The number of indices that a lock covers (R49). -/
def Lock.count (l : Lock) : Nat :=
  match l.direction with
  | .lower => l.boundary
  | .upper => 16 - l.boundary

/-- LOCK PREFERENCES at the preference list (R49). -/
def State.lockRequest (s : State) (boundary direction : Nat) : State × Response :=
  match s.prefs.lock, lockDirectionOf direction with
  | some _, _ => (s, only .protectedCode)
  | none, none => (s, only .range)
  | none, some d =>
    if 16 < boundary then (s, only .range)
    else
      let l : Lock := ⟨boundary, d⟩
      ({ s with prefs := { s.prefs with lock := some l } }, ⟨.ok, .prefLocked l l.count⟩)

/-- LOCK PREFERENCES (R49). -/
def execLockPreferences (p : Port) (boundary direction : Nat) (s : State) : Host.Outcome State Fault Refusal :=
  .next (s.stationRequest p (·.lockRequest boundary direction))

/-! ### The survey mode (R74) -/

/-- SET SURVEY MODE at the survey scheduler (R74). -/
def State.modeRequest (s : State) (mode : Nat) : State × Response :=
  match surveyModeOf mode with
  | some m => (s.setSurveyMode m, only .ok)
  | none => (s, only .range)

/-- SET SURVEY MODE (R74). -/
def execSetSurveyMode (p : Port) (mode : Nat) (s : State) : Host.Outcome State Fault Refusal :=
  .next (s.stationRequest p (·.modeRequest mode))

/-! ### Entries and radios (R21, R70) -/

/-- READ ENTRY (R21). -/
def execReadEntry (p : Port) (slot : Nat) (s : State) : Host.Outcome State Fault Refusal :=
  .next (s.stationRequest p (readout (·.readEntry slot)))

/-- READ RADIO (R70). -/
def execReadRadio (p : Port) (radio : Nat) (s : State) : Host.Outcome State Fault Refusal :=
  .next (s.stationRequest p (readout (·.readRadio radio)))

/-! ### The journal (R151, R152) -/

/-- The list of records is replaced, and the JOURNAL condition tested (R153). -/
def State.setRecords (s : State) (l : List JournalRecord) : State :=
  ({ s with journal := { s.journal with records := l } } : State).testJournal

/-- TAKE JOURNAL at the journal (R151). -/
def State.takeRecord (s : State) : State × Response :=
  match s.journal.records with
  | [] => (s, only .empty)
  | x :: rest => (s.setRecords rest, ⟨.ok, .record x rest.length⟩)

/-- TAKE JOURNAL (R151). -/
def execTakeJournal (p : Port) (s : State) : Host.Outcome State Fault Refusal := .next (s.stationRequest p (·.takeRecord))

/-- SET JOURNAL MARK at the journal (R152). -/
def State.markRequest (s : State) (mark : Nat) : State × Response :=
  if 1 ≤ mark ∧ mark ≤ 32 then
    (({ s with journal := { s.journal with mark := mark } } : State).testJournal,
      ⟨.ok, .mark mark s.journal.records.length⟩)
  else (s, only .range)

/-- SET JOURNAL MARK (R152). -/
def execSetJournalMark (p : Port) (mark : Nat) (s : State) : Host.Outcome State Fault Refusal :=
  .next (s.stationRequest p (·.markRequest mark))

end Sys2Proof.Machine
end

