-- ==== Sys2Proof/Machine/Clock.lean ====
section
/-! DEFINITION. One millisecond that passes: every running count advances, and what falls due is handled in the order of
log entry 2 (00_scope 4.3).  The table has no row for it: it is what a step does on an empty queue (log entry 1). -/

namespace Sys2Proof.Machine

/-! ### Counts advance -/

/-- A running timer counts one millisecond. -/
def tickTimer (t : Option Nat) : Option Nat := t.map (· + 1)

/-- The age of an entry advances while it is ranked or LOST and not pinned (R5), and a running exclusion falls (R14). -/
def Entry.tick (e : Entry) : Entry :=
  { e with
    age := match e.state with
      | .held _ => e.age
      | .ranked _ | .lost => if e.pin then e.age else satSucc Config.maxMs e.age
    excludedFor := e.excludedFor.map (· - 1) }

/-- The reach table's counts advance (R5, R10, R14, R16). -/
def ReachTable.tick (t : ReachTable) : ReachTable where
  slots := mapEntries t.slots fun e => some e.tick
  silentHold := ⟨tickTimer t.silentHold.a, tickTimer t.silentHold.b⟩
  relax := t.relax + 1

/-- A context's timers advance (R60, R61, R68). -/
def RadioContext.tick (c : RadioContext) : RadioContext :=
  { c with silence := tickTimer c.silence, start := tickTimer c.start, take := tickTimer c.take }

/-- A counting pause falls by one; a held pause keeps its time (R83). -/
def Pause.tick (p : Pause) : Pause := if p.held then p else { p with remaining := p.remaining - 1 }

/-- A radio's survey timers advance (R79, R83). -/
def SurveyState.tick : SurveyState → SurveyState
  | .waiting own => .waiting (own.map Pause.tick)
  | .due => .due
  | .ordered u => .ordered u
  | .running u w t => .running u w (t + 1)

/-- The scheduler's timers advance. -/
def Scheduler.tick (c : Scheduler) : Scheduler :=
  { c with states := ⟨c.states.a.tick, c.states.b.tick⟩, shared := c.shared.map Pause.tick }

/-- An attempt's deadlines advance (R109, R110). -/
def Attempt.tick (a : Attempt) : Attempt := { a with setup := tickTimer a.setup, answer := tickTimer a.answer }

/-- The stagger timer advances in COUNTING (R122). -/
def Stagger.tick : Stagger → Stagger
  | .counting ms => .counting (ms + 1)
  | .stopped => .stopped
  | .opened => .opened

/-- The window timer advances while it counts (R140). -/
def CallbackPart.tick (p : CallbackPart) : CallbackPart := if p.counting then { p with timer := p.timer + 1 } else p

/-- The call record's timers advance. -/
def CallRecord.tick (c : CallRecord) : CallRecord :=
  { c with
    attempts := c.attempts.map Attempt.tick
    part := c.part.map CallbackPart.tick
    backoff := tickTimer c.backoff
    ending := tickTimer c.ending
    stagger := c.stagger.tick }

/-- A qualifying timer advances (R156). -/
def SupplyLine.tick (x : SupplyLine) : SupplyLine := { x with timer := tickTimer x.timer }

/-- Every count of the part advances by one millisecond, the running time among them (R149). -/
def State.advance (s : State) : State :=
  { s with
    table := s.table.tick
    radios := ⟨s.radios.a.tick, s.radios.b.tick⟩
    survey := s.survey.tick
    call := s.call.tick
    journal := { s.journal with clock := s.journal.clock.next }
    supply := { s.supply with lowv := s.supply.lowv.tick, critv := s.supply.critv.tick }
    linkCheck := ⟨tickTimer s.linkCheck.a, tickTimer s.linkCheck.b⟩ }

/-! ### What falls due -/

/-- A timer has reached its length. -/
def reached (length : Nat) (t : Option Nat) : Bool := t.any (length ≤ ·)

/-- An event is handled when it is due as the state then stands. -/
def State.whenDue (s : State) (due : State → Bool) (f : State → State) : State := if due s then f s else s

/-- An event of each radio, A first. -/
def State.eachRadio (s : State) (due : Radio → State → Bool) (f : Radio → State → State) : State :=
  (s.whenDue (due .A) (f .A)).whenDue (due .B) (f .B)

/-- The exclusion of a slot has reached 0 (R14). -/
def exclusionDue (i : Nat) (s : State) : Bool := (s.entry i).any fun e => e.excludedFor == some 0

/-- The window timer has reached the window length plus the grace (R79). -/
def windowDue (r : Radio) (s : State) : Bool :=
  match s.surveyOf r with
  | .running _ w t => w + Config.windowGrace ≤ t
  | .waiting _ | .due | .ordered _ => false

/-- A counting pause has run out (R83). -/
def Pause.ranOut (p : Pause) : Bool := p.counts && p.remaining == 0

/-- The stagger timer has reached the stagger time (R122). -/
def staggerDue (s : State) : Bool :=
  match s.call.stagger with
  | .counting ms => s.profile.stagger * 1000 ≤ ms
  | .stopped | .opened => false

/-- The deadlines of an attempt that are due are handled (R109, R110). -/
def State.attemptDue (s : State) (number : Nat) : State :=
  (s.whenDue (fun s => (s.attempt number).any fun a => reached (s.profile.setup * 1000) a.setup)
    (·.deadlineExpired number (·.setup) .setupTimeout)).whenDue
    (fun s => (s.attempt number).any fun a => reached (s.profile.answer * 1000) a.answer)
    (·.deadlineExpired number (·.answer) .answerTimeout)

/-- The table's events (R5, R10, R14, R16). -/
def State.tableDue (s : State) : State :=
  let t := ((s.testAges.testSilentHold .A).testSilentHold .B)
  let t := (List.range 48).foldl (fun s i => s.whenDue (exclusionDue i) (·.exclusionExpired i)) t
  t.whenDue (fun s => s.profile.relax * 1000 ≤ s.table.relax) (·.relaxCredits)

/-- The supply lines', ports' and radios' events (R156, R169, R60, R62, R68). -/
def State.radioDue (s : State) : State :=
  let t := s.whenDue (fun s => reached Config.qualifyTime s.supply.lowv.timer) (·.qualifyExpired .lowv)
  let t := t.whenDue (fun s => reached Config.qualifyTime s.supply.critv.timer) (·.qualifyExpired .critv)
  let t := t.eachRadio (fun r s => reached Config.linkCheckTime (s.linkCheck.get r)) (fun r s => s.linkCheckExpired r)
  let t := t.eachRadio (fun r s => reached Config.startTime (s.radio r).start) (fun r s => s.startExpired r)
  let t := t.eachRadio (fun r s => reached s.profile.silenceTime (s.radio r).silence) (fun r s => s.silenceExpired r)
  t.eachRadio (fun r s => reached Config.takeTime (s.radio r).take) (fun r s => s.takeExpired r)

/-- The survey scheduler's events (R81, R83). -/
def State.surveyDue (s : State) : State :=
  let t := s.eachRadio windowDue (fun r s => s.windowExpired r)
  let t := t.eachRadio (fun r s => (s.surveyOf r).ownPause.any Pause.ranOut) (fun r s => s.ownPauseExpired r)
  t.whenDue (fun s => s.survey.shared.any Pause.ranOut) (·.sharedExpired)

/-- The call controller's events (R97, R99, R109, R110, R125, R140). -/
def State.callDue (s : State) : State :=
  let t := s.whenDue (fun s => reached s.tb s.call.backoff) (·.backoffExpired)
  let t := t.whenDue (fun s => reached Config.endingTime s.call.ending) (·.endingExpired)
  let t := (t.call.attempts.map (·.number)).foldl State.attemptDue t
  let t := t.whenDue staggerDue (·.staggerExpired)
  t.whenDue (fun s => s.call.part.any fun p => p.counting && decide (p.length ≤ p.timer)) (·.callbackExpired)

/-- One millisecond passes.  None is counted while the reset input is asserted (log entry 8). -/
def State.tick (s : State) : State := s.event fun s => s.advance.tableDue.radioDue.surveyDue.callDue

end Sys2Proof.Machine
end

