-- ==== Sys2Proof/Machine/CallRequests.lean ====
section
/-! DEFINITION. The station's requests on the call: CALL START, CALL END, ANSWER and READ CALL (chapters 6 and 9). -/

namespace Sys2Proof.Machine

/-! ### CALL START (R89, R90) -/

/-- The call number after a call number, wrapping from 65535 to 1 (R87). -/
def nextCall (n : Nat) : Nat := if n < 65535 then n + 1 else 1

/-- Steps 3 and 4 of R89, and the note of R138 cleared. -/
def CallRecord.fresh (c : CallRecord) (now : Time) : CallRecord :=
  { c with
    number := nextCall c.number
    startTime := some now
    failures := 0
    radioFailures := ⟨0, 0⟩
    lastFailed := none
    carrying := none
    everConnected := false
    recoveries := 0
    note := none }

/-- A new call begins: steps 1 to 4 of R89. -/
def State.prepareCall (s : State) : State :=
  (({ s with linkCheck := ⟨none, none⟩ } : State).snoozeTest true).mapCall (·.fresh s.now)

/-- A new call begins (R89). -/
def State.beginCall (s : State) : State := s.handling fun s => s.prepareCall.runSelection

/-- CALL START ends a callback part (R145): CALLBACK END orders, the unpin, the part absent. -/
def State.endPartForCall (s : State) (p : CallbackPart) : State :=
  (((s.endHold p).endOtherOffer p).unpinHeld p).mapCall fun c => { c with part := none }

/-- The offer of a RINGING ring state is answered (R142). -/
def State.answerOffer (s : State) (r : Radio) : State :=
  (s.queueAnswer r).mapPart fun p =>
    { p with counting := false, offer := p.offer.map fun o => { o with ring := .answering } }

/-- The offer of the callback part. -/
def State.offer (s : State) : Option Offer := s.call.part.bind (·.offer)

/-- CALL START in CALLBACK (R90). -/
def State.startInCallback (s : State) : State × Response :=
  match s.call.part with
  | some p =>
    match p.offer with
    | some ⟨r, .ringing, _⟩ => (s.answerOffer r, only .ok)
    | some ⟨_, .answering, _⟩ | none => ((s.endPartForCall p).beginCall, only .ok)
  | none => (s.beginCall, only .ok)

/-- CALL START at the call controller (R89, R90). -/
def State.startRequest (s : State) : State × Response :=
  match s.call.state with
  | .idle => (s.beginCall, only .ok)
  | .callback => s.startInCallback
  | .seeking | .placing | .backoff | .connected | .recovering | .ending => (s, only .active)

/-- CALL START (R89, R90). -/
def execCallStart (p : Port) (s : State) : Host.Outcome State Fault Refusal := .next (s.stationRequest p (·.startRequest))

/-! ### CALL END (R91) -/

/-- An attempt whose order is still queued is presented with a CANCEL: it is withdrawn (R66, R119). -/
def State.withdrawQueued (s : State) (a : Attempt) : State :=
  if s.hasAttemptOrder a.radio a.number then s.withdraw a else s

/-- An attempt that its radio has taken, or a connected leg, is given a CANCEL disposition (R91, R117). -/
def State.cancelAttempt (s : State) (a : Attempt) : State :=
  if a.isWanted then
    (s.mapAttempt a.number fun x => { x with disposition := some .cancel, setup := none, answer := none }).enqueue
      a.radio (.cancel a.number .callerEnd)
  else s

/-- The first two steps of R91, each in the order of the attempts in flight (for two attempts that are both still ORDERED
log entry 33, DESIGN CHOICE). -/
def State.cancelAll (s : State) : State :=
  let t := s.call.attempts.foldl State.withdrawQueued s
  t.call.attempts.foldl State.cancelAttempt t

/-- The call ends: the first row of R91's table, with the test of R98. -/
def State.endCall (s : State) : State :=
  s.handling fun s =>
    let t := (s.cancelAll.mapCall fun c => { c with backoff := none }).setStagger .stopped
    ((t.setRoute none).enterEnding).testEnding

/-- CALL END ends a callback leg: the second row of R91's table. -/
def State.endLeg (s : State) (r : Radio) : State := (((s.enqueue r (.callback .stop)).setRoute none).enterEnding).testEnding

/-- CALL END withdraws an ANSWERING offer (R145). -/
def State.withdrawOffer (s : State) (p : CallbackPart) (r : Radio) : State :=
  (match p.held with
    | some h => if h.radio = r then s.enqueue r h.order else s.enqueue r (.callback .stop)
    | none => s.enqueue r (.callback .stop)).removeOffer

/-- CALL END in CALLBACK (R91, R145). -/
def State.endInCallback (s : State) : State × Response :=
  match s.call.part with
  | some p =>
    match p.offer with
    | some ⟨r, .answering, _⟩ => (s.withdrawOffer p r, only .ok)
    | some ⟨_, .ringing, _⟩ | none => (s, only .idle)
  | none => (s, only .idle)

/-- CALL END in CONNECTED: on a callback leg, or on an attempt (R91). -/
def State.endConnected (s : State) : State :=
  match s.offer with
  | some o => s.endLeg o.radio
  | none => s.endCall

/-- CALL END at the call controller (R91). -/
def State.endRequest (s : State) : State × Response :=
  match s.call.state with
  | .seeking | .placing | .backoff | .recovering => (s.endCall, only .ok)
  | .connected => (s.endConnected, only .ok)
  | .callback => s.endInCallback
  | .ending => (s, only .ok)
  | .idle => (s, only .idle)

/-- CALL END (R91). -/
def execCallEnd (p : Port) (s : State) : Host.Outcome State Fault Refusal := .next (s.stationRequest p (·.endRequest))

/-! ### ANSWER and READ CALL -/

/-- ANSWER at the call controller (R142). -/
def State.answerRequest (s : State) : State × Response :=
  match s.call.state with
  | .callback =>
    match s.offer with
    | some ⟨r, .ringing, _⟩ => (s.answerOffer r, only .ok)
    | some ⟨_, .answering, _⟩ => (s, only .answered)
    | none => (s, only .noneCode)
  | .connected | .ending => if s.legUp then (s, only .answered) else (s, only .noneCode)
  | .idle | .seeking | .placing | .backoff | .recovering => (s, only .noneCode)

/-- ANSWER (R142). -/
def execAnswer (p : Port) (s : State) : Host.Outcome State Fault Refusal := .next (s.stationRequest p (·.answerRequest))

/-- READ CALL (R101). -/
def execReadCall (p : Port) (s : State) : Host.Outcome State Fault Refusal :=
  .next (s.stationRequest p (readout (·.readCall)))

end Sys2Proof.Machine
end

