-- ==== Sys2Proof/Machine/RadioRequests.lean ====
section
/-! DEFINITION. The requests of the radio ports: ANNOUNCE, MODULE STATUS, CELL REPORT, TAKE ORDER, PROGRESS, SURVEY DONE
and INCOMING (chapters 4, 5, 7, 8 and 9). -/

namespace Sys2Proof.Machine

/-! ### ANNOUNCE, MODULE STATUS, CELL REPORT, TAKE ORDER -/

/-- ANNOUNCE at the radio supervisor (R57). -/
def State.announceRequest (s : State) (r : Radio) (generations : List Nat) (identity : Nat) : State × Response :=
  if announceValid generations then (s.restartContext r generations identity, only .ok)
  else (s.heardAnnounce r, only .range)

/-- ANNOUNCE (R57).  It is taken in every state of the radio, and brings about no recovery (R55, R63). -/
def execAnnounce (p : Port) (generations : List Nat) (identity : Nat) (s : State) : Host.Outcome State Fault Refusal :=
  .next (s.period p fun s =>
    match p with
    | .station => s.answer p (reply (only .denied))
    | .radio r => s.answer p
        (onRadioPort (fun r s => s.heardAnnounce r) (fun r s => s.announceRequest r generations identity) r))

/-- MODULE STATUS from a radio that is not OFF (R58). -/
def State.moduleRequest (s : State) (r : Radio) (ready fault : Nat) : State × Response :=
  match flagOf fault, flagOf ready with
  | some true, _ => (s.moduleStatus r false true, only .ok)
  | some false, some y => (s.moduleStatus r y false, only .ok)
  | some false, none | none, _ => (s, only .range)

/-- MODULE STATUS (R58). -/
def execModuleStatus (p : Port) (ready fault : Nat) (s : State) : Host.Outcome State Fault Refusal :=
  .next (s.radioRequest p fun r s => s.moduleRequest r ready fault)

/-- CELL REPORT from a radio that is not OFF (R59). -/
def State.cellRequest (s : State) (r : Radio) (count : Nat) (reports : List RawReport) : State × Response :=
  if 1 ≤ count ∧ count ≤ 6 then
    match (s.radio r).state with
    | .starting | .ready | .surveying | .attempting | .inCall =>
      ((s.takeReports r reports).1, ⟨.ok, .outcomes (s.takeReports r reports).2⟩)
    | .snooze | .fault | .off | .silent => (s, only .notReady)
  else (s, only .range)

/-- CELL REPORT (R59). -/
def execCellReport (p : Port) (count : Nat) (reports : List RawReport) (s : State) : Host.Outcome State Fault Refusal :=
  .next (s.radioRequest p fun r s => s.cellRequest r count reports)

/-- TAKE ORDER (R67). -/
def execTakeOrder (p : Port) (s : State) : Host.Outcome State Fault Refusal :=
  .next (s.radioRequest p fun r s => s.takeOrder r)

/-! ### PROGRESS on an attempt (R106 to R117, R131) -/

/-- The report moves an attempt in the step forward, or ends it (R107). -/
def Report.moves : Report → AttemptStep → Bool
  | .accepted, .taken => true
  | .alerting, .taken | .alerting, .accepted => true
  | .connected, .taken | .connected, .accepted | .connected, .alerting => true
  | .failed _, .taken | .failed _, .accepted | .failed _, .alerting => true
  | .dropped _, .connected => true
  | .accepted, .ordered | .accepted, .accepted | .accepted, .alerting | .accepted, .connected => false
  | .alerting, .ordered | .alerting, .alerting | .alerting, .connected => false
  | .connected, .ordered | .connected, .connected => false
  | .failed _, .ordered | .failed _, .connected => false
  | .dropped _, .ordered | .dropped _, .taken | .dropped _, .accepted | .dropped _, .alerting => false
  | .cleared, _ => false

/-- A taken ACCEPTED: the setup deadline runs on (R108). -/
def State.attemptAccepted (s : State) (a : Attempt) : State :=
  s.mapAttempt a.number fun x => { x with step := .accepted }

/-- A taken ALERTING: the answer deadline takes the setup deadline's place, and the stagger stops (R108, R124). -/
def State.attemptAlerting (s : State) (a : Attempt) : State :=
  (s.mapAttempt a.number fun x => { x with step := .alerting, setup := none, answer := some 0 }).setStagger .stopped

/-- What a report taken for an attempt with no disposition does (R108, R111, R115, R116). -/
def State.reportTaken (s : State) (a : Attempt) : Report → State
  | .accepted => s.attemptAccepted a
  | .alerting => s.attemptAlerting a
  | .connected => s.connectAttempt a
  | .failed c => s.failAttempt a c false
  | .dropped c => s.dropLeg a c
  | .cleared => s

/-- A report on an attempt with no disposition (R107). -/
def State.progressWanted (s : State) (a : Attempt) (x : Report) : State × Response :=
  if x.moves a.step then (s.reportTaken a x, only .ok) else (s, only .outOfOrder)

/-- ACCEPTED or ALERTING on an attempt with a disposition: the step advances when the report moves it forward, and
nothing else happens (R117, R131). -/
def State.advanceDisposed (s : State) (a : Attempt) (x : Report) (step : AttemptStep) : State × Response :=
  if x.moves a.step then (s.mapAttempt a.number fun y => { y with step := step }, only .ok)
  else (s, only .outOfOrder)

/-- A report on an attempt with a CANCEL disposition (R117). -/
def State.progressCancelled (s : State) (a : Attempt) (x : Report) : State × Response :=
  match x with
  | .accepted => s.advanceDisposed a x .accepted
  | .alerting => s.advanceDisposed a x .alerting
  | .connected => (s, only .stale)
  | .failed _ => if a.step = .connected then (s, only .outOfOrder) else (s.endDisposed a .cleared, only .ok)
  | .cleared => (s.endDisposed a (if a.step = .connected then .connectedEnded else .cleared), only .ok)
  | .dropped _ => if a.step = .connected then (s.endDisposed a .connectedEnded, only .ok) else (s, only .outOfOrder)

/-- A report on a surplus loser (R131). -/
def State.progressSurplus (s : State) (a : Attempt) (x : Report) : State × Response :=
  match x with
  | .accepted => s.advanceDisposed a x .accepted
  | .alerting => s.advanceDisposed a x .alerting
  | .connected => (s, only .surplus)
  | .failed _ => (s.endDisposed a .surplus, only .ok)
  | .cleared => (s.endDisposed a .surplus, only .ok)
  | .dropped _ => (s, only .outOfOrder)

/-- Steps 4 and 5 of R106. -/
def State.progressAttempt (s : State) (a : Attempt) (x : Report) : State × Response :=
  match a.disposition with
  | some .cancel => s.progressCancelled a x
  | some .surplus => s.progressSurplus a x
  | none => s.progressWanted a x

/-- The attempt in flight that a radio's report names (R106, step 3). -/
def State.namedAttempt (s : State) (r : Radio) (number : Nat) : Option Attempt :=
  s.call.attempts.find? fun a => a.number == number && a.radio == r

/-! ### PROGRESS on a callback leg (R143, R144) -/

/-- A callback leg connects (R143). -/
def State.connectLeg (s : State) (r : Radio) : State :=
  let t := if (s.radio r).state = .surveying then s.finishSurvey r else s
  let t := (t.enterCall r .ready).mapPart fun p =>
    { p with offer := p.offer.map fun o => { o with connected := some s.now } }
  (t.setRoute (some r)).setCall .connected

/-- A report on an offer in CALLBACK (R143). -/
def State.progressOffer (s : State) (r : Radio) (ring : Ring) (x : Report) : State × Response :=
  match x with
  | .failed _ | .cleared => (s.removeOffer, only .ok)
  | .connected =>
    match ring with
    | .answering => (s.connectLeg r, only .ok)
    | .ringing => (s, only .outOfOrder)
  | .accepted | .alerting | .dropped _ => (s, only .outOfOrder)

/-- A report on a connected callback leg (R143). -/
def State.progressLeg (s : State) (p : CallbackPart) (o : Offer) (x : Report) : State × Response :=
  match x with
  | .dropped c => ((s.dropCallback p o c).testEnding, only .ok)
  | .accepted | .alerting | .connected | .failed _ | .cleared => (s, only .outOfOrder)

/-- A report on a callback leg that the call is ENDING (R143). -/
def State.progressEndingLeg (s : State) (p : CallbackPart) (o : Offer) (x : Report) : State × Response :=
  match x with
  | .cleared | .dropped _ => (s.clearCallback p o, only .ok)
  | .connected => (s, only .stale)
  | .accepted | .alerting | .failed _ => (s, only .outOfOrder)

/-- PROGRESS with attempt number 0 on the offer of the reporting radio, by call state (R143). -/
def State.progressCallback (s : State) (p : CallbackPart) (o : Offer) (x : Report) : State × Response :=
  match s.call.state with
  | .callback => s.progressOffer o.radio o.ring x
  | .connected => if o.connected.isSome then s.progressLeg p o x else (s, only .stale)
  | .ending => if o.connected.isSome then s.progressEndingLeg p o x else (s, only .stale)
  | .idle | .seeking | .placing | .backoff | .recovering => (s, only .stale)

/-- PROGRESS with attempt number 0 (R143). -/
def State.progressZero (s : State) (r : Radio) (x : Report) : State × Response :=
  match s.call.part with
  | some p =>
    match p.offer with
    | some o => if o.radio = r then s.progressCallback p o x else (s, only .stale)
    | none => (s, only .stale)
  | none => (s, only .stale)

/-- A PROGRESS that passes step 1 of R106. -/
def State.progressReport (s : State) (r : Radio) (number : Nat) (x : Report) : State × Response :=
  if number = 0 then s.progressZero r x
  else match s.namedAttempt r number with
    | some a => s.progressAttempt a x
    | none => (s, only .stale)

/-- PROGRESS at the call controller (R106), with what the handling owes at its end (R69). -/
def State.progressRequest (s : State) (r : Radio) (number kind cause : Nat) : State × Response :=
  match reportOf kind cause with
  | some x => (settle s (s.progressReport r number x).1, (s.progressReport r number x).2)
  | none => (s, only .range)

/-- PROGRESS (R106). -/
def execProgress (p : Port) (number kind cause : Nat) (s : State) : Host.Outcome State Fault Refusal :=
  .next (s.radioRequest p fun r s => s.progressRequest r number kind cause)

/-! ### SURVEY DONE and INCOMING -/

/-- SURVEY DONE at the survey scheduler (R80). -/
def State.surveyDoneRequest (s : State) (r : Radio) : State × Response :=
  if (s.surveyOf r).isRunning then (s.finishSurvey r, only .ok) else (s, only .stale)

/-- SURVEY DONE (R80). -/
def execSurveyDone (p : Port) (s : State) : Host.Outcome State Fault Refusal :=
  .next (s.radioRequest p fun r s => s.surveyDoneRequest r)

/-- An offer is recorded, RINGING; a held radio that is SURVEYING has abandoned its scan (R141). -/
def State.recordOffer (s : State) (r : Radio) : State :=
  let t := (s.mapPart fun p => { p with offer := some ⟨r, .ringing, none⟩ }).post .ring
  let t := if (t.radio r).state = .surveying then t.finishSurvey r else t
  t.snoozeTest false

/-- INCOMING at the call controller (R141). -/
def State.incomingRequest (s : State) (r : Radio) : State × Response :=
  match s.call.state, s.call.part with
  | .callback, some p =>
    if p.offer.isSome then (s, only .busy)
    else if s.isHeldRadio r || s.radioReady r then (s.recordOffer r, only .ok)
    else (s, only .notAccepted)
  | .callback, none | .idle, _ | .seeking, _ | .placing, _ | .backoff, _ | .connected, _ | .recovering, _
  | .ending, _ => (s, only .notAccepted)

/-- INCOMING (R141). -/
def execIncoming (p : Port) (s : State) : Host.Outcome State Fault Refusal :=
  .next (s.radioRequest p fun r s => s.incomingRequest r)

end Sys2Proof.Machine
end

