-- ==== Sys2Proof/Machine/Dispatch.lean ====
section
/-! DEFINITION. The effect of each command on everything but the queue: one arm for each row of the table. -/

namespace Sys2Proof.Machine

def exec (i : Instr) (s : State) : Host.Outcome State Fault Refusal :=
  match i with
  | .powerOnReset => Sys2Proof.Machine.execPowerOnReset s
  | .selectAssert p => Sys2Proof.Machine.execSelectAssert p s
  | .emptySelectPeriod p => Sys2Proof.Machine.execEmptySelectPeriod p s
  | .frameError p => Sys2Proof.Machine.execFrameError p s
  | .unknownRequest p => Sys2Proof.Machine.execUnknownRequest p s
  | .noOp p => Sys2Proof.Machine.execNoOp p s
  | .readNotice p => Sys2Proof.Machine.execReadNotice p s
  | .setNoticeEnables p kinds => Sys2Proof.Machine.execSetNoticeEnables p kinds s
  | .readRanked p start count order => Sys2Proof.Machine.execReadRanked p start count order s
  | .announce p generations identity => Sys2Proof.Machine.execAnnounce p generations identity s
  | .moduleStatus p ready fault => Sys2Proof.Machine.execModuleStatus p ready fault s
  | .cellReport p count reports => Sys2Proof.Machine.execCellReport p count reports s
  | .takeOrder p => Sys2Proof.Machine.execTakeOrder p s
  | .progress p number kind cause => Sys2Proof.Machine.execProgress p number kind cause s
  | .surveyDone p => Sys2Proof.Machine.execSurveyDone p s
  | .incoming p => Sys2Proof.Machine.execIncoming p s
  | .callStart p => Sys2Proof.Machine.execCallStart p s
  | .callEnd p => Sys2Proof.Machine.execCallEnd p s
  | .answer p => Sys2Proof.Machine.execAnswer p s
  | .readCall p => Sys2Proof.Machine.execReadCall p s
  | .setProfile p fields => Sys2Proof.Machine.execSetProfile p fields s
  | .readProfile p => Sys2Proof.Machine.execReadProfile p s
  | .writePreference p index empty code tier => Sys2Proof.Machine.execWritePreference p index empty code tier s
  | .readPreference p index => Sys2Proof.Machine.execReadPreference p index s
  | .lockPreferences p boundary direction => Sys2Proof.Machine.execLockPreferences p boundary direction s
  | .setSurveyMode p mode => Sys2Proof.Machine.execSetSurveyMode p mode s
  | .readEntry p slot => Sys2Proof.Machine.execReadEntry p slot s
  | .readRadio p radio => Sys2Proof.Machine.execReadRadio p radio s
  | .readStatus p => Sys2Proof.Machine.execReadStatus p s
  | .takeJournal p => Sys2Proof.Machine.execTakeJournal p s
  | .setJournalMark p mark => Sys2Proof.Machine.execSetJournalMark p mark s
  | .linkCheck p port setting => Sys2Proof.Machine.execLinkCheck p port setting s
  | .resetPart p => Sys2Proof.Machine.execResetPart p s
  | .supplyLineChange l level => Sys2Proof.Machine.execSupplyLineChange l level s
  | .qualifyingTimerExpiry l => Sys2Proof.Machine.execQualifyingTimerExpiry l s
  | .linkCheckTimerExpiry r => Sys2Proof.Machine.execLinkCheckTimerExpiry r s
  | .silenceTimerExpiry r => Sys2Proof.Machine.execSilenceTimerExpiry r s
  | .startTimerExpiry r => Sys2Proof.Machine.execStartTimerExpiry r s
  | .takeDeadlineExpiry r => Sys2Proof.Machine.execTakeDeadlineExpiry r s
  | .silentHoldExpiry r => Sys2Proof.Machine.execSilentHoldExpiry r s
  | .fadeTimeReached slot => Sys2Proof.Machine.execFadeTimeReached slot s
  | .lostTimeReached slot => Sys2Proof.Machine.execLostTimeReached slot s
  | .entryRelease slot => Sys2Proof.Machine.execEntryRelease slot s
  | .exclusionExpiry slot => Sys2Proof.Machine.execExclusionExpiry slot s
  | .creditRelaxExpiry => Sys2Proof.Machine.execCreditRelaxExpiry s
  | .windowTimerExpiry r => Sys2Proof.Machine.execWindowTimerExpiry r s
  | .pauseExpiry r => Sys2Proof.Machine.execPauseExpiry r s
  | .sharedPauseExpiry => Sys2Proof.Machine.execSharedPauseExpiry s
  | .backoffExpiry => Sys2Proof.Machine.execBackoffExpiry s
  | .endingTimerExpiry => Sys2Proof.Machine.execEndingTimerExpiry s
  | .setupDeadlineExpiry number => Sys2Proof.Machine.execSetupDeadlineExpiry number s
  | .answerDeadlineExpiry number => Sys2Proof.Machine.execAnswerDeadlineExpiry number s
  | .staggerTimerExpiry => Sys2Proof.Machine.execStaggerTimerExpiry s
  | .callbackWindowExpiry => Sys2Proof.Machine.execCallbackWindowExpiry s
  | .resetInputAsserted => Sys2Proof.Machine.execResetInputAsserted s

end Sys2Proof.Machine
end

