-- ==== Sys2Proof/WellFormed.lean ====
section
/-! DEFINITION. A command is well formed when every field fits the width its frame gives it (R164) and every list
has the length its count byte states (R165).  Range checks on the values are the meanings', not these. -/

namespace Sys2Proof

/-- A cell report's fields fit their thirteen bytes (R164). -/
def RawReport.wellFormed (x : RawReport) : Bool :=
  x.network < 2 ^ 24 && x.generation < 256 && x.cell < 2 ^ 32 && x.channel < 2 ^ 16
    && (-32768 ≤ x.level && x.level ≤ 32767) && x.quality < 256

/-- A generation bias fits its signed byte (R164, R168). -/
def biasWellFormed (b : Int) : Bool := -128 ≤ b && b ≤ 127

/-- SET PROFILE's fields fit the sizes of the table of R168. -/
def ProfileFields.wellFormed (f : ProfileFields) : Bool :=
  f.smoothing < 256 && f.fade < 256 && f.lost < 65536 && f.relax < 65536
    && biasWellFormed f.bias2 && biasWellFormed f.bias3 && biasWellFormed f.bias4 && biasWellFormed f.bias5
    && f.exponent < 256 && f.recovery < 256 && f.arrangement < 256 && f.operate < 256 && f.pause < 65536
    && f.dual < 256 && f.stagger < 256 && f.setup < 256 && f.answer < 256 && f.backoff < 65536
    && f.exclusion < 65536 && f.window < 65536

/-- The list of ANNOUNCE fits a frame of at most 96 bytes (R164): length, code, count, the list, four identity
bytes and the check. -/
def announceWellFormed (generations : List Nat) (identity : Nat) : Bool :=
  generations.length ≤ 88 && generations.all (· < 256) && identity < 2 ^ 32

/-- The reports of CELL REPORT number what its count byte states when that lies within 1 to 6 (R59, R165); with
another count the frame's reports are not looked at, and the command carries none. -/
def cellReportWellFormed (count : Nat) (reports : List RawReport) : Bool :=
  count < 256 && reports.length == (if 1 ≤ count ∧ count ≤ 6 then count else 0) && reports.all RawReport.wellFormed

/-- Every operand fits its field. -/
def Instr.wellFormed : Instr → Bool
  | .setNoticeEnables _ kinds => kinds < 256
  | .readRanked _ start count order => start < 256 && count < 256 && order < 256
  | .announce _ generations identity => announceWellFormed generations identity
  | .moduleStatus _ ready fault => ready < 256 && fault < 256
  | .cellReport _ count reports => cellReportWellFormed count reports
  | .progress _ number kind cause => number < 256 && kind < 256 && cause < 256
  | .setProfile _ fields => fields.wellFormed
  | .writePreference _ index empty code tier => index < 256 && empty < 256 && code < 2 ^ 24 && tier < 256
  | .readPreference _ index => index < 256
  | .lockPreferences _ boundary direction => boundary < 256 && direction < 256
  | .setSurveyMode _ mode => mode < 256
  | .readEntry _ slot => slot < 256
  | .readRadio _ radio => radio < 256
  | .setJournalMark _ mark => mark < 256
  | .linkCheck _ port setting => port < 256 && setting < 256
  | .fadeTimeReached slot => slot < 48
  | .lostTimeReached slot => slot < 48
  | .entryRelease slot => slot < 48
  | .exclusionExpiry slot => slot < 48
  | .setupDeadlineExpiry number => 1 ≤ number && number < 256
  | .answerDeadlineExpiry number => 1 ≤ number && number < 256
  | .powerOnReset | .selectAssert _ | .emptySelectPeriod _ | .frameError _ | .unknownRequest _ | .noOp _
  | .readNotice _ | .takeOrder _ | .surveyDone _ | .incoming _ | .callStart _ | .callEnd _ | .answer _
  | .readCall _ | .readProfile _ | .readStatus _ | .takeJournal _ | .resetPart _ | .supplyLineChange _ _
  | .qualifyingTimerExpiry _ | .linkCheckTimerExpiry _ | .silenceTimerExpiry _ | .startTimerExpiry _
  | .takeDeadlineExpiry _ | .silentHoldExpiry _ | .creditRelaxExpiry | .windowTimerExpiry _ | .pauseExpiry _
  | .sharedPauseExpiry | .backoffExpiry | .endingTimerExpiry | .staggerTimerExpiry | .callbackWindowExpiry
  | .resetInputAsserted => true

end Sys2Proof
end

