-- ==== Sys2Proof/Safety.lean ====
section
/-! DEFINITION. What a sound state of the part is, and what a change leaves, in the terms that statements use, each from
the rule that states it. -/

namespace Sys2Proof.Machine

/-! ### The reach table and the preference list -/

/-- The key of an entry (R2). -/
def Entry.key (e : Entry) : Radio × Nat × Nat × Nat := (e.radio, e.network, e.generation, e.cell)

/-- The fields of an occupied entry lie in the ranges of R1, and its tier is the one that the list gives its network code
(R41, R46). -/
structure Entry.Sound (l : Preferences) (e : Entry) : Prop where
  network : e.network ≤ 999999
  generation : 2 ≤ e.generation ∧ e.generation ≤ 5
  cell : e.cell ≤ 268435455
  level : -2240 ≤ e.level ∧ e.level ≤ -704
  quality : ∀ q, e.quality = some q → q ≤ 31
  reports : 1 ≤ e.reports ∧ e.reports ≤ 255
  credit : e.credit ≤ 15
  score : e.score ≤ 1023
  tier : e.tier = tierOf l e.network

/-- Every occupied entry is sound, and no two have the same key (R1, R2). -/
structure SlotsSound (l : Preferences) (t : Slots) : Prop where
  entries : ∀ i e, slotAt t i = some e → e.Sound l
  keys : ∀ i j e f, slotAt t i = some e → slotAt t j = some f → e.key = f.key → i = j

/-- The network codes that the list holds. -/
def Preferences.codes (l : Preferences) : List Nat := (l.list.toList.filterMap id).map (·.code)

/-- No code stands at two indices, and every code and tier is in range (R41). -/
structure Preferences.Sound (l : Preferences) : Prop where
  distinct : l.codes.Nodup
  range : ∀ c ∈ l.list.toList.filterMap id, c.code ≤ 999999 ∧ c.tier ≤ 3

/-- The list and the table are sound together. -/
def State.TableSound (s : State) : Prop := s.prefs.Sound ∧ SlotsSound s.prefs s.table.slots

/-! ### Radio contexts -/

/-- The silence timer runs exactly in the working states, the start timer exactly in STARTING (R52, R60, R61). -/
def RadioContext.TimersSound (c : RadioContext) : Prop :=
  c.silence.isSome = c.state.isWorking ∧ c.start.isSome = (c.state == .starting)

/-- Both radios' timers are sound. -/
def State.TimersSound (s : State) : Prop := ∀ r, (s.radio r).TimersSound

/-- No queue holds two orders of one kind (R65). -/
def kindsDistinct (q : List Order) : Prop := (q.map Order.kind).Nodup

/-- No queue holds two orders of one kind, and ORDER is pending on a radio's port exactly while its queue is not empty
(R65). -/
def State.QueuesSound (s : State) : Prop :=
  ∀ r, kindsDistinct (s.radio r).queue ∧ (s.port (.radio r)).pending.order = !(s.radio r).queue.isEmpty

/-! ### The call record -/

/-- The attempts in flight name different radios and have different numbers, each 1 to 255, and the next attempt number is
the one that the next attempt receives: none of theirs (R87, R92, R94). -/
structure AttemptsSound (l : List Attempt) (next : Nat) : Prop where
  radios : (l.map (·.radio)).Nodup
  numbers : (l.map (·.number)).Nodup
  range : ∀ a ∈ l, 1 ≤ a.number ∧ a.number ≤ 255
  fresh : ∀ a ∈ l, a.number ≠ next
  next : 1 ≤ next ∧ next ≤ 255

/-- The attempts in flight of a state are sound. -/
def State.AttemptsSound (s : State) : Prop := Machine.AttemptsSound s.call.attempts s.call.nextAttempt

/-- The voice-route lines are as the route gives, and deasserted while the reset input is asserted (R136, R176). -/
def State.LinesSound (s : State) : Prop :=
  if s.resetAsserted then s.call.lineA = false ∧ s.call.lineB = false
  else s.call.lineA = (s.call.route == some .A) ∧ s.call.lineB = (s.call.route == some .B)

/-! ### The journal -/

/-- A list of records that a journal may hold: at most 32, with a gap at the head alone (R147, R150). -/
def recordsSound (l : List JournalRecord) : Prop := l.length ≤ 32 ∧ ∀ x ∈ l.tail, x.gap = 0

/-- The list and the mark are in range, and JOURNAL is pending exactly while the unread count has reached the mark (R147,
R150, R153). -/
def State.JournalSound (s : State) : Prop :=
  recordsSound s.journal.records ∧ (1 ≤ s.journal.mark ∧ s.journal.mark ≤ 32)
    ∧ s.ports.station.pending.journal = decide (s.journal.mark ≤ s.journal.records.length)

/-! ### Attention lines -/

/-- A port whose select is deasserted drives its attention line exactly while a kind is pending and enabled; every line
is deasserted while the reset input is asserted (R173). -/
def State.AttentionSound (s : State) : Prop :=
  ∀ p, if s.resetAsserted then (s.port p).attention = false
    else (s.port p).selected = false → (s.port p).attention = (s.port p).nextNotice.isSome

/-! ### The state as a whole -/

/-- Everything that the predicates above say. -/
structure State.Sound (s : State) : Prop where
  table : s.TableSound
  timers : s.TimersSound
  queues : s.QueuesSound
  attempts : s.AttemptsSound
  lines : s.LinesSound
  journal : s.JournalSound
  attention : s.AttentionSound

/-! ### How the blocks hang together -/

/-- The slot is the target of an attempt in flight, or the held slot of a callback part (R13, R138). -/
def State.Bound (s : State) (i : Nat) : Prop :=
  (∃ a ∈ s.call.attempts, a.slot = i) ∨ ∃ p k, s.call.part = some p ∧ p.held = some k ∧ k.slot = some i

/-- A callback leg is up on the radio (R138). -/
def State.LegOn (s : State) (r : Radio) : Prop :=
  ∃ p o, s.call.part = some p ∧ p.offer = some o ∧ o.radio = r ∧ o.connected ≠ none

/-- The radio is READY or SURVEYING. -/
def State.Open (s : State) (r : Radio) : Prop := (s.radio r).state = .ready ∨ (s.radio r).state = .surveying

/-- What each call state says of the attempts in flight (R87, R91, R94, R103, R129, R131, R134): none without one that the
part wants; in CONNECTED one that is connected, beside surplus losers, or a callback leg; in ENDING the disposed ones, or a
callback leg. -/
def State.AttemptsFit (s : State) : Prop :=
  match s.call.state with
  | .idle | .seeking | .backoff | .callback => s.call.attempts = []
  | .placing | .recovering => (∃ a ∈ s.call.attempts, a.disposition = none)
      ∧ ∀ a ∈ s.call.attempts, a.step ≠ .connected ∧ a.disposition ≠ some .cancel
  | .connected => ((∃ r, s.LegOn r) ∧ s.call.attempts = [])
      ∨ (s.call.part = none ∧ ∃ a ∈ s.call.attempts, a.disposition = none ∧ a.step = .connected
        ∧ ∀ b ∈ s.call.attempts, b = a ∨ (b.disposition = some .surplus ∧ b.step ≠ .connected))
  | .ending => ((∃ r, s.LegOn r) ∧ s.call.attempts = [])
      ∨ (s.call.part = none ∧ s.call.attempts ≠ []
        ∧ ∀ a ∈ s.call.attempts, a.disposition = some .cancel ∨ (a.disposition = some .surplus ∧ a.step ≠ .connected))

/-- The callback part stands in CALLBACK, with a held radio and no leg, and through a leg in CONNECTED and ENDING (R138,
R143, R144). -/
def State.PartFits (s : State) : Prop :=
  match s.call.part with
  | none => s.call.state ≠ .callback
  | some p => (s.call.state = .callback ∧ p.held ≠ none ∧ ∀ o, p.offer = some o → o.connected = none)
      ∨ ((s.call.state = .connected ∨ s.call.state = .ending) ∧ ∃ o, p.offer = some o ∧ o.connected ≠ none)

/-- The radios of the callback part are READY or SURVEYING, or carry the leg; one that is held, or whose offer is ANSWERING,
has no POWER SNOOZE queued (R66, R139, R142, R146, R159). -/
def State.MembersFit (s : State) : Prop :=
  ∀ p, s.call.part = some p →
    (∀ k, p.held = some k → (s.Open k.radio ∨ s.LegOn k.radio) ∧ .power .snooze ∉ (s.radio k.radio).queue)
    ∧ ∀ o, p.offer = some o → (s.Open o.radio ∨ s.LegOn o.radio)
      ∧ (o.ring = .answering → .power .snooze ∉ (s.radio o.radio).queue)

/-- The table, the radios, the scheduler and the call record fit each other. -/
structure State.Linked (s : State) : Prop where
  /-- An entry is pinned exactly while an attempt or the callback part holds its slot (R13). -/
  pins : ∀ i, (∃ e, s.entry i = some e ∧ e.pin = true) ↔ s.Bound i
  targets : ∀ a ∈ s.call.attempts, ∀ e, s.entry a.slot = some e → e.radio = a.radio
  heldSlot : ∀ p k i e, s.call.part = some p → p.held = some k → k.slot = some i → s.entry i = some e → e.radio = k.radio
  /-- ATTEMPTING and IN_CALL stand for an attempt in flight, a connected one or a callback leg (R53). -/
  attempting : ∀ r, (s.radio r).state = .attempting ↔ ∃ a ∈ s.call.attempts, a.radio = r ∧ a.step ≠ .connected
  inCall : ∀ r, (s.radio r).state = .inCall
    ↔ (∃ a ∈ s.call.attempts, a.radio = r ∧ a.step = .connected) ∨ s.LegOn r
  /-- A survey is RUNNING exactly while its radio is SURVEYING (R73). -/
  surveying : ∀ r, (s.radio r).state = .surveying ↔ ∃ u w x, s.surveyOf r = .running u w x
  /-- The route names the radio of the connected leg, and no other (R136). -/
  route : ∀ r, s.call.route = some r ↔ s.call.state = .connected
    ∧ ((∃ a ∈ s.call.attempts, a.radio = r ∧ a.disposition = none ∧ a.step = .connected) ∨ s.LegOn r)
  attempts : s.AttemptsFit
  part : s.PartFits
  members : s.MembersFit
  /-- An ATTEMPT order is queued exactly for an attempt in ORDERED, which has no disposition (R66, R105, R119). -/
  queued : ∀ r b c d e f n, .attempt n b c d e f ∈ (s.radio r).queue →
    ∃ a ∈ s.call.attempts, a.number = n ∧ a.radio = r ∧ a.step = .ordered ∧ a.disposition = none
  ordered : ∀ a ∈ s.call.attempts, a.step = .ordered →
    ∃ b c d e f, .attempt a.number b c d e f ∈ (s.radio a.radio).queue
  /-- A deadline runs for a wanted attempt that is not connected alone (R108, R115, R117, R131). -/
  deadlines : ∀ a ∈ s.call.attempts, a.setup ≠ none ∨ a.answer ≠ none → a.disposition = none ∧ a.step ≠ .connected
  backoff : s.call.backoff ≠ none ↔ s.call.state = .backoff
  ending : s.call.ending ≠ none ↔ s.call.state = .ending
  /-- No POWER SNOOZE waits for a radio with an attempt, nor, in a call, for the radio of the noted connection (R66,
  R158). -/
  awake : ∀ a ∈ s.call.attempts, .power .snooze ∉ (s.radio a.radio).queue
  noted : ∀ n, s.call.state ≠ .idle → s.call.part = none → s.call.note = some n →
    .power .snooze ∉ (s.radio n.radio).queue

/-! ### Select periods and requests, as statements speak of them -/

/-- The end of a select period on the port is judged: the reset input is deasserted, and the period is not one that stood
asserted at its release (R163, R176). -/
def State.Listens (s : State) (p : Port) : Prop := s.resetAsserted = false ∧ (s.port p).ignoring = false

/-- The state in which the bytes of a select period are judged: select is deasserted, and the port has no pending response
(R163). -/
def State.opened (s : State) (p : Port) : State := s.mapPort p PortState.endPeriod

/-- The state after a request has been answered: the response is pending on its port, and the attention lines follow
(R163, R173). -/
def State.answered (s : State) (p : Port) (r : Response) : State := (s.respond p r).followLines

/-- A request on a radio's port is handed to its owner: the port listens, its link-check mode is off and the radio is not
OFF (R55, R171). -/
def State.Speaks (s : State) (r : Radio) : Prop :=
  s.Listens (.radio r) ∧ s.linkCheck.get r = none ∧ (s.radio r).state ≠ .off

/-- The state in which a radio's request is handled, once the radio has been heard (R56). -/
def State.heardOn (s : State) (r : Radio) : State := (s.opened (.radio r)).heard r

/-- A request on the port is handed to its owner in the state `h` (R55, R56, R163, R166). -/
def State.Hands (s : State) : Port → State → Prop
  | .station, h => s.Listens .station ∧ h = s.opened .station
  | .radio r, h => s.Speaks r ∧ h = s.heardOn r

/-- Which ports may send a request (R166). -/
inductive Senders where
  | every | stationOnly | radioOnly
deriving DecidableEq, Repr

/-- The ports that may send a command that is a request, by the table of R166. -/
def senders : Instr → Option Senders
  | .noOp _ | .readNotice _ | .setNoticeEnables _ _ | .readRanked _ _ _ _ => some .every
  | .announce _ _ _ | .moduleStatus _ _ _ | .cellReport _ _ _ | .takeOrder _ | .progress _ _ _ _ | .surveyDone _
  | .incoming _ => some .radioOnly
  | .callStart _ | .callEnd _ | .answer _ | .readCall _ | .setProfile _ _ | .readProfile _ | .writePreference _ _ _ _ _
  | .readPreference _ _ | .lockPreferences _ _ _ | .setSurveyMode _ _ | .readEntry _ _ | .readRadio _ _ | .readStatus _
  | .takeJournal _ | .setJournalMark _ _ | .linkCheck _ _ _ | .resetPart _ => some .stationOnly
  | .powerOnReset | .selectAssert _ | .emptySelectPeriod _ | .frameError _ | .unknownRequest _
  | .supplyLineChange _ _ | .qualifyingTimerExpiry _ | .linkCheckTimerExpiry _ | .silenceTimerExpiry _
  | .startTimerExpiry _ | .takeDeadlineExpiry _ | .silentHoldExpiry _ | .fadeTimeReached _ | .lostTimeReached _
  | .entryRelease _ | .exclusionExpiry _ | .creditRelaxExpiry | .windowTimerExpiry _ | .pauseExpiry _
  | .sharedPauseExpiry | .backoffExpiry | .endingTimerExpiry | .setupDeadlineExpiry _ | .answerDeadlineExpiry _
  | .staggerTimerExpiry | .callbackWindowExpiry | .resetInputAsserted => none

/-- A response with a code and no field. -/
def bare (c : RespCode) : Response := ⟨c, .none⟩

/-! ### What a change leaves -/

/-- A radio's queue may change, and nothing else of the radio. -/
def State.radioKept (s t : State) (r : Radio) : Prop := { t.radio r with queue := (s.radio r).queue } = s.radio r

/-- What only its own requests change. -/
def State.settingsKept (s t : State) : Prop := t.prefs = s.prefs ∧ t.supply = s.supply ∧ t.profile = s.profile

/-- Of the ports at most the pending kinds that `may` names have changed. -/
def State.portsKept (s t : State) (may : Port → NoticeKind → Prop) : Prop :=
  ∀ p, { t.port p with pending := (s.port p).pending } = s.port p
    ∧ ∀ k, ¬ may p k → (t.port p).pending.has k = (s.port p).pending.has k

/-- TABLE at the station. -/
def tableNotice (p : Port) (k : NoticeKind) : Prop := p = .station ∧ k = .table

/-- ORDER on a radio's port. -/
def orderNotice (p : Port) (k : NoticeKind) : Prop := p ≠ .station ∧ k = .order

/-- The ranked entries of a radio are HELD, and no other entry has changed (R8). -/
def State.entriesHeld (s t : State) (r : Radio) : Prop :=
  (∀ i, s.entry i = none → t.entry i = none)
  ∧ ∀ i e, s.entry i = some e →
    (∀ g, e.radio = r → e.state = .ranked g → t.entry i = some { e with state := .held g })
    ∧ (e.radio ≠ r ∨ (∀ g, e.state ≠ .ranked g) → t.entry i = some e)

/-- The HELD entries of a radio have returned, those whose age has reached no threshold with their score computed anew, and
no entry of another radio or in another state has changed (R9). -/
def State.entriesReturned (s t : State) (r : Radio) : Prop :=
  (∀ i, s.entry i = none → t.entry i = none)
  ∧ ∀ i e, s.entry i = some e →
    (∀ g, e.radio = r → e.state = .held g →
      e.pin = true ∨ (e.age < s.profile.lost * 1000 ∧ (g = .fading ∨ e.age < s.profile.fade * 1000)) →
      t.entry i = some { e with state := .ranked g, score := scoreOf s.profile.biases { e with state := .ranked g } })
    ∧ (e.radio ≠ r ∨ (∀ g, e.state ≠ .held g) → t.entry i = some e)

/-- The entries of a radio have lost their pins and are LOST, or freed from four times the lost time on, and no other entry
has changed (R11). -/
def State.entriesRestarted (s t : State) (r : Radio) : Prop :=
  (∀ i, s.entry i = none → t.entry i = none)
  ∧ ∀ i e, s.entry i = some e →
    (e.radio ≠ r → t.entry i = some e)
    ∧ (e.radio = r → t.entry i = if e.age < 4 * (s.profile.lost * 1000) then
        some { e with state := .lost, age := max e.age (s.profile.lost * 1000), pin := false } else none)

/-- No count of the part reaches its length in the next millisecond (R5, R10, R14, R16, R60, R61, R68, R79, R83, R96, R99,
R109, R110, R122, R140, R156, R169). -/
structure State.NothingDue (s : State) : Prop where
  ages : ∀ i e, s.entry i = some e → e.pin = false → e.age < 4294967295
    ∧ (e.state = .ranked .fresh ∨ e.state = .ranked .steady → e.age + 1 < s.profile.fade * 1000)
    ∧ (e.state = .ranked .fading → e.age + 1 < s.profile.lost * 1000)
    ∧ (e.state = .lost → e.age + 1 < 4 * (s.profile.lost * 1000))
  exclusions : ∀ i e n, s.entry i = some e → e.excludedFor = some n → 1 < n
  holds : ∀ r n, s.table.silentHold.get r = some n → n + 1 < s.profile.lost * 1000
  relax : s.table.relax + 1 < s.profile.relax * 1000
  lines : ∀ l n, (s.supply.line l).timer = some n → n + 1 < 500
  links : ∀ r n, s.linkCheck.get r = some n → n + 1 < 10000
  starts : ∀ r n, (s.radio r).start = some n → n + 1 < 30000
  silences : ∀ r n, (s.radio r).silence = some n → n + 1 < 2 ^ s.profile.exponent
  takes : ∀ r n, (s.radio r).take = some n → n + 1 < 2000
  windows : ∀ r u w x, s.surveyOf r = .running u w x → x + 1 < w + 2000
  pauses : ∀ r n, s.surveyOf r = .waiting (some ⟨n, false⟩) → 1 < n
  shared : ∀ n, s.survey.shared = some ⟨n, false⟩ → 1 < n
  backoff : ∀ n, s.call.backoff = some n → n + 1 < min 16000 (s.profile.backoff * 2 ^ min (s.call.failures - 1) 4)
  ending : ∀ n, s.call.ending = some n → n + 1 < 5000
  setups : ∀ a ∈ s.call.attempts, ∀ n, a.setup = some n → n + 1 < s.profile.setup * 1000
  answers : ∀ a ∈ s.call.attempts, ∀ n, a.answer = some n → n + 1 < s.profile.answer * 1000
  stagger : ∀ n, s.call.stagger = .counting n → n + 1 < s.profile.stagger * 1000
  callback : ∀ p, s.call.part = some p → p.counting = true → p.timer + 1 < p.length

/-! ### Cell reports, as statements speak of them -/

/-- The identity fields of a report can name a cell that the radio could have heard (R24). -/
def namesCell (c : RadioContext) (x : RawReport) : Prop :=
  (∃ g, c.generations = some g ∧ g.has x.generation = true) ∧ x.cell ≤ 268435455 ∧ x.network ≤ 999999

/-- A report that passes the checks of R24 to R27. -/
def passesChecks (c : RadioContext) (x : RawReport) : Prop :=
  namesCell c x ∧ -200 ≤ x.level ∧ x.level ≤ 0 ∧ x.quality ≤ 99 ∧ (x.level ≤ -140 → x.quality < 20 ∨ x.quality = 99)

/-- The level of a report as R25 leaves it. -/
def mendedLevel (x : RawReport) : Int := max (-140) (min (-44) x.level)

/-- The quality of a report as R26 leaves it. -/
def mendedQuality (x : RawReport) : Option Nat := if x.quality = 99 then none else some (min 31 x.quality)

/-- The clamps that R25 applies to a report that passes its identity check. -/
def levelMends (x : RawReport) : Nat := if -140 ≤ x.level ∧ x.level ≤ -44 then 0 else 1

/-- The clamps that R25 and R26 apply to a report that passes the checks. -/
def mends (x : RawReport) : Nat := levelMends x + if 32 ≤ x.quality ∧ x.quality ≤ 98 then 1 else 0

/-- A CELL REPORT of one report is answered with the outcome, and the part is left in the state `t` (R23, R59). -/
def State.Answers (s : State) (r : Radio) (x : RawReport) (o : ReportOutcome) (clamps : Nat) (t : State) : Prop :=
  exec (.cellReport (.radio r) 1 [x]) s = .next (t.answered (.radio r) ⟨.ok, .outcomes [(o, decide (clamps ≠ 0))]⟩)

/-- The reach table has handled a report of the radio: the intake counts are as given, and the state is otherwise as before
but for the slots and the TABLE notice (R20, R23, R28). -/
def State.Tabled (h : State) (r : Radio) (clamps : Nat) (c : IntakeCounts) (t : State) : Prop :=
  t.radio r = { h.radio r with counts := { c with clamped := min 65535 (c.clamped + clamps) } }
    ∧ t.radio (otherRadio r) = h.radio (otherRadio r)
    ∧ { t with table := h.table, radios := h.radios, ports := h.ports } = h
    ∧ h.portsKept t tableNotice
    ∧ { t.table with slots := h.table.slots } = h.table

/-- A CELL REPORT of one report is answered with the outcome, and what the reach table does with it is all. -/
def State.Reported (s : State) (r : Radio) (x : RawReport) (o : ReportOutcome) (clamps : Nat) (c : IntakeCounts)
    (t : State) : Prop := s.Answers r x o clamps t ∧ (s.heardOn r).Tabled r clamps c t

/-- The radio takes the reports of a CELL REPORT (R59). -/
def State.takesReports (s : State) (r : Radio) : Prop :=
  ((s.heardOn r).radio r).state ≠ .snooze ∧ ((s.heardOn r).radio r).state ≠ .fault

/-! ### Selection and attempts, as statements speak of them -/

/-- A candidate of selection (R92). -/
def State.Candidate (s : State) (i : Nat) (e : Entry) : Prop :=
  s.entry i = some e ∧ (∃ g, e.state = .ranked g)
    ∧ ((s.radio e.radio).state = .ready ∨ (s.radio e.radio).state = .surveying)
    ∧ e.excludedFor = none ∧ ∀ a ∈ s.call.attempts, a.slot ≠ i ∧ a.radio ≠ e.radio

/-- Of some candidates the ones of tier 1 to 3, or all when every one has tier 0 (R92). -/
def eligibleOf (p : Nat → Entry → Prop) (i : Nat) (e : Entry) : Prop := p i e ∧ (1 ≤ e.tier ∨ ∀ j f, p j f → f.tier = 0)

/-- The entry of lowest rank among some (R19, R92). -/
def State.FirstOf (s : State) (p : Nat → Entry → Prop) (i : Nat) (e : Entry) : Prop :=
  p i e ∧ ∃ n : Nat, s.ranked[n]? = some (i, e) ∧ ∀ (m j : Nat) (f : Entry), m < n → s.ranked[m]? = some (j, f) → ¬ p j f

/-- Selection turns away from the radio: it was the last to fail, twice in a row or more, and the other radio has an
eligible entry (R93). -/
def State.TurnsFrom (s : State) (r : Radio) : Prop :=
  s.call.lastFailed = some r ∧ 2 ≤ s.call.radioFailures.get r
    ∧ ∃ j f, eligibleOf s.Candidate j f ∧ f.radio = otherRadio r

/-- The walk chooses the entry (R92, R93). -/
def State.Chooses (s : State) (i : Nat) (e : Entry) : Prop :=
  ((∀ r, ¬ s.TurnsFrom r) ∧ s.FirstOf (eligibleOf s.Candidate) i e)
    ∨ ∃ r, s.TurnsFrom r ∧ s.FirstOf (fun j f => eligibleOf s.Candidate j f ∧ f.radio = otherRadio r) i e

/-- The restricted walk on a radio chooses the entry (R93). -/
def State.ChoosesOn (s : State) (r : Radio) (i : Nat) (e : Entry) : Prop :=
  s.FirstOf (eligibleOf fun j f => s.Candidate j f ∧ f.radio = r) i e

/-- A step from which a second attempt may still be ordered (R125, R126). -/
def Attempt.Early (a : Attempt) : Prop := a.step = .ordered ∨ a.step = .taken ∨ a.step = .accepted

/-- The record of an attempt ordered on an entry (R94, R103). -/
def State.orderedAttempt (s : State) (i : Nat) (e : Entry) (number : Nat) : Attempt :=
  ⟨number, e.radio, i, e.network, e.generation, e.cell, .ordered, s.journal.clock, none, none, none, none⟩

/-- What ordering an attempt on an entry leaves, the call record apart (R13, R65, R66, R94). -/
structure State.Placed (s t : State) (i : Nat) (e : Entry) (number : Nat) : Prop where
  radio : t.radio e.radio
    = { s.radio e.radio with state := .attempting, start := none, take := some 0, queue := (t.radio e.radio).queue }
  order : (t.radio e.radio).queue.getLast? = some (.attempt number i e.network e.generation e.cell e.channel)
  removed : ∀ o ∈ (t.radio e.radio).queue, o.kind ≠ .survey ∧ o ≠ .power .snooze
  survey : (s.radio e.radio).state = .surveying → ∀ u w x, t.surveyOf e.radio ≠ .running u w x
  other : { t.radio (otherRadio e.radio) with queue := (s.radio (otherRadio e.radio)).queue } = s.radio (otherRadio e.radio)
  pinned : t.entry i = some { e with pin := true }
  entries : ∀ j, j ≠ i → t.entry j = s.entry j
  table : { t.table with slots := s.table.slots } = s.table
  journal : t.journal = s.journal
  rest : t.prefs = s.prefs ∧ t.supply = s.supply ∧ t.profile = s.profile

/-- The number after a call number, and after an attempt number (R87, R94). -/
def afterCall (n : Nat) : Nat := if n < 65535 then n + 1 else 1
def afterAttempt (n : Nat) : Nat := if n < 255 then n + 1 else 1

/-- The number after an attempt number beside an attempt in flight, whose number is skipped (R94). -/
def afterAttemptBeside (a : Attempt) (n : Nat) : Nat :=
  if a.number = afterAttempt n then afterAttempt (afterAttempt n) else afterAttempt n

/-- The stagger after a lone attempt has been ordered (R122, R123). -/
def State.staggerAfter (s : State) : Stagger :=
  if s.profile.staggered = true ∧ s.supply.condition = .normal then .counting 0 else s.call.stagger

/-- What the call controller does at a candidate event, or an entry into READY, of a radio in the state `u` (R95, R126): in
SEEKING an attempt is ordered on the walk's choice with the call PLACING; while the stagger is OPEN, beside a lone attempt
of the other radio that is not yet ALERTING, a second attempt is ordered on the choice of the restricted walk and the
stagger stops; without a candidate the call and the table stay. -/
def State.Walks (u t : State) (r : Radio) : Prop :=
  (u.call.state = .seeking → u.call.attempts = [] → u.call.part = none →
    ((∀ i e, ¬ u.Candidate i e) → t.call = u.call ∧ t.table = u.table)
    ∧ ∀ i e, u.Chooses i e → u.Placed t i e u.call.nextAttempt ∧ t.survey.urgent = false
      ∧ t.call = { u.call with
        state := .placing, attempts := [u.orderedAttempt i e u.call.nextAttempt]
        nextAttempt := afterAttempt u.call.nextAttempt, stagger := u.staggerAfter })
  ∧ (∀ a, u.call.state = .placing ∨ u.call.state = .recovering → u.call.stagger = .opened → u.call.attempts = [a] →
    a.disposition = none → u.call.part = none → a.number ≠ u.call.nextAttempt →
    (¬ a.Early ∨ a.radio = r ∨ (∀ i e, u.Candidate i e → e.radio ≠ r) → t.call = u.call ∧ t.table = u.table)
    ∧ ∀ i e, a.Early → a.radio = otherRadio r → u.ChoosesOn r i e → u.Placed t i e u.call.nextAttempt
      ∧ t.call = { u.call with
        attempts := [a, u.orderedAttempt i e u.call.nextAttempt]
        nextAttempt := afterAttemptBeside a u.call.nextAttempt, stagger := .stopped })

/-- A candidate event of the radio orders nothing: it runs no selection in the call state, or the walk has no candidate
(R95, R126). -/
def State.NoSelection (u : State) (r : Radio) : Prop :=
  (u.call.state = .seeking → ∀ i e, ¬ u.Candidate i e)
  ∧ ∀ a, u.call.state = .placing ∨ u.call.state = .recovering → u.call.stagger = .opened → u.call.attempts = [a] →
    a.disposition = none → a.Early → a.radio = otherRadio r → ∀ i e, u.Candidate i e → e.radio ≠ r

/-- A CELL REPORT whose entry joins the ranked list is answered TAKEN (R20): the reach table leaves the state `u`, and the
candidate event, delivered after that whole change (log entry 13), does what `Walks` says, or nothing. -/
def State.Joins (s : State) (r : Radio) (x : RawReport) (clamps : Nat) (c : IntakeCounts) (u : State) : Prop :=
  ∃ t : State, s.Answers r x .taken clamps t ∧ (s.heardOn r).Tabled r clamps c u ∧ u.Walks t r
    ∧ (u.NoSelection r → t = u)

/-- The milliseconds from a running time to the present, where no wrap lies between and the count does not saturate
(R148, R149). -/
def State.lasted (s : State) (from_ : Time) (d : Nat) : Prop :=
  from_.total ≤ s.journal.clock.total → s.journal.clock.total < 4294967296 * 1000 →
    s.journal.clock.total - from_.total ≤ 4294967295 → d = s.journal.clock.total - from_.total

/-- The radio has been released to READY by the call controller (R69). -/
def State.Released (s t : State) (r : Radio) : Prop :=
  t.radio r = { s.radio r with state := .ready, start := none, take := (t.radio r).take, queue := (t.radio r).queue }

/-- The entry of the slot, where there is one, is not pinned. -/
def State.Unpinned (t : State) (i : Nat) : Prop := ∀ e, t.entry i = some e → e.pin = false

/-- The two attempts are in flight, in either order. -/
def bothInFlight (a b : Attempt) (l : List Attempt) : Prop := l = [a, b] ∨ l = [b, a]

/-- The call record with a failure on the radio counted (R112). -/
def CallRecord.blamed (c : CallRecord) (r : Radio) : CallRecord :=
  { c with
    failures := min 255 (c.failures + 1)
    radioFailures := c.radioFailures.set r (min 255 (c.radioFailures.get r + 1))
    lastFailed := some r }

/-- The call record of a call without a route, the lines deasserted (R136). -/
def CallRecord.unrouted (c : CallRecord) : CallRecord := { c with route := none, lineA := false, lineB := false }

/-- The ATTEMPT record of an attempt that ends now, the time running from `b` (R120, R148). -/
def State.AttemptRecord (s : State) (a : Attempt) (o : RecordOutcome) (reason : Option EndReason) (b : Time)
    (x : JournalRecord) : Prop :=
  ∃ d, s.lasted b d ∧ x = ⟨.attempt, s.call.number, some a.number, some a.radio, some a.network, some a.generation,
    some a.cell, some o, reason, d, s.journal.clock.sec, 0⟩

/-- The CALL_END record of a call that ends now (R100, R148). -/
def State.EndRecord (s : State) (reason : EndReason) (x : JournalRecord) : Prop :=
  ∃ d, (∀ b, s.call.startTime = some b → s.lasted b d)
    ∧ x = ⟨.callEnd, s.call.number, none, none, none, none, none, none, some reason, d, s.journal.clock.sec, 0⟩

/-- The records have joined the journal, which has not overwritten any (R147). -/
def State.Journals (s t : State) (l : List JournalRecord) : Prop :=
  t.journal = { s.journal with records := s.journal.records ++ l }

/-- An ending that completes ends in IDLE: the call was never connected, the window is 0, or the radio of the noted
connection is neither among those just released nor READY or SURVEYING (R100, R139). -/
def State.endsIdle (s : State) (released : List Radio) : Prop :=
  s.call.everConnected = false ∨ s.profile.window = 0
    ∨ ∀ n, s.call.note = some n → n.radio ∉ released ∧ ¬ s.Open n.radio

/-- An ending that completes ends in CALLBACK, by the note of its last connection (R100, R139). -/
def State.endsCallback (s : State) (released : List Radio) (n : ConnectionNote) : Prop :=
  s.call.everConnected = true ∧ 0 < s.profile.window ∧ s.call.note = some n ∧ (n.radio ∈ released ∨ s.Open n.radio)

/-- The callback part formed at an ending: the window, the held radio of the note, and the held slot, pinned, where the
slot of the note still holds the noted cell; a HOLD is queued to the radio (R139). -/
def State.PartFormed (s t : State) (n : ConnectionNote) (p : CallbackPart) : Prop :=
  ∃ slot : Option Nat,
    (∀ i, slot = some i ↔ i = n.slot ∧ ∃ e, t.entry i = some e ∧ e.key = (n.radio, n.network, n.generation, n.cell))
    ∧ p = ⟨s.profile.window * 1000, 0, true, some ⟨n.radio, n.network, n.generation, n.cell, slot⟩, none⟩
    ∧ .callback (.hold n.network n.cell) ∈ (t.radio n.radio).queue
    ∧ ∀ i e, slot = some i → t.entry i = some e → e.pin = true

/-- The callback part without its offer, the window counting from 0 (R140). -/
def CallbackPart.offerGone (p : CallbackPart) : CallbackPart := { p with offer := none, timer := 0, counting := true }

/-- The CALLBACK_LEG record of a leg that ends now, with the identity of the held cell where the held radio carried it
(R144, R148). -/
def State.LegRecord (s : State) (p : CallbackPart) (o : Offer) (out : RecordOutcome) (reason : Option EndReason) (b : Time)
    (x : JournalRecord) : Prop :=
  ∃ d, s.lasted b d ∧ x = ⟨.callbackLeg, s.call.number, some 0, some o.radio,
    (p.held.filter fun k => k.radio == o.radio).map (·.network),
    (p.held.filter fun k => k.radio == o.radio).map (·.generation),
    (p.held.filter fun k => k.radio == o.radio).map (·.cell), some out, reason, d, s.journal.clock.sec, 0⟩

/-- A callback leg has ended, and the call with it (R100, R144, R146): the two records, the radio released, the route NONE,
every exclusion ended; with a held radio the call is in CALLBACK again with the window at 0 and a HOLD queued, and without
one it is IDLE with no callback part. -/
def State.LegOver (s t : State) (p : CallbackPart) (o : Offer) (out : RecordOutcome) (reason : Option EndReason)
    (e : EndReason) (b : Time) : Prop :=
  (∃ x y, s.LegRecord p o out reason b x ∧ s.EndRecord e y ∧ s.Journals t [x, y])
  ∧ (∀ k, p.held = some k →
    t.call = { s.call.unrouted with state := .callback, carrying := none, ending := none, part := some p.offerGone }
    ∧ ((s.radio k.radio).state ≠ .off → (s.radio k.radio).state ≠ .fault →
      .callback (.hold k.network k.cell) ∈ (t.radio k.radio).queue))
  ∧ (p.held = none → t.call = { s.call.unrouted with
      state := .idle, startTime := none, carrying := none, ending := none, part := none })
  ∧ t.radio o.radio = { s.radio o.radio with state := .ready, start := none, queue := (t.radio o.radio).queue }
  ∧ s.radioKept t (otherRadio o.radio) ∧ s.settingsKept t ∧ (t.port .station).pending.call = true
  ∧ (∀ i, s.entry i = none → t.entry i = none)
  ∧ ∀ i f, s.entry i = some f → f.radio ≠ o.radio ∨ (∀ g, f.state ≠ .held g) →
    t.entry i = some { f with excludedFor := none }

/-- The ways to lose a radio that the call controller is told of (R57, R60, R62, R64): the command, the state `h` in which
it is handled, the cause, the state in which it leaves the radio, and how the command ends. -/
def State.Loses (s : State) (r : Radio) (i : Instr) (h : State) (c : Cause) (v : RadioState) (ends : State → State) :
    Prop :=
  (i = .silenceTimerExpiry r ∧ s.resetAsserted = false ∧ (s.radio r).silence ≠ none ∧ h = s ∧ c = .radioSilent
      ∧ v = .silent ∧ ends = State.followLines)
  ∨ (i = .startTimerExpiry r ∧ s.resetAsserted = false ∧ (s.radio r).start ≠ none ∧ h = s ∧ c = .radioFault ∧ v = .fault
      ∧ ends = State.followLines)
  ∨ ((∃ ready, i = .moduleStatus (.radio r) ready 1) ∧ s.Speaks r ∧ h = s.heardOn r ∧ (h.radio r).state ≠ .fault
      ∧ c = .radioFault ∧ v = .fault ∧ ends = fun t => t.answered (.radio r) (bare .ok))
  ∨ ((∃ gens identity, i = .announce (.radio r) gens identity ∧ gens ≠ [] ∧ gens.length ≤ 4 ∧ ∀ g ∈ gens, 2 ≤ g ∧ g ≤ 5)
      ∧ s.Listens (.radio r) ∧ s.linkCheck.get r = none ∧ h = s.opened (.radio r) ∧ c = .radioFault ∧ v = .starting
      ∧ ends = fun t => t.answered (.radio r) (bare .ok))

end Sys2Proof.Machine
end

