-- ==== Sys2Proof/Certificates/Slice0/Obligations.lean ====
section
/-! DEFINITION. The statements for the provers.  Each docstring names the rule that a statement formalises, or says that it
is the model's own choice and names the log entry. -/

open Sys2Proof Sys2Proof.Machine

/-! ### The machine as a whole -/

/-- A step takes the command at the front of the queue and runs it on the state with the queue's rest (log entry 12). -/
def Obligations.StepRunsFrontCommand : Prop :=
  ∀ (c : Instr) (rest : List Instr) (s : State), s.pending = c :: rest → step s = exec c { s with pending := rest }

/-- Every command gives a next state, whatever its operands and whatever the state (00_scope 4.5).  It leaves the queue
of commands as it is, and no time passes in it: only POWER_ON_RESET changes the running time (R149, log entries 1 and
12). -/
def Obligations.EveryCommandCompletes : Prop :=
  ∀ (i : Instr) (s : State), ∃ t : State, exec i s = .next t ∧ t.pending = s.pending
    ∧ (i ≠ .powerOnReset → t.journal.clock = s.journal.clock)

/-- The fields of the state that one owner alone changes: the profile, the preference list, the supply monitor, the
journal mark, the enable sets and the link-check modes each change by the commands of their own chapter and by power-on
reset alone.  Every other command leaves them. -/
def Obligations.OwnersAlone : Prop :=
  ∀ (i : Instr) (s t : State), exec i s = .next t → i ≠ .powerOnReset →
    ((∀ p f, i ≠ .setProfile p f) → t.profile = s.profile)
    ∧ ((∀ p a b c d, i ≠ .writePreference p a b c d) → (∀ p a b, i ≠ .lockPreferences p a b) → t.prefs = s.prefs)
    ∧ ((∀ l v, i ≠ .supplyLineChange l v) → (∀ l, i ≠ .qualifyingTimerExpiry l) → t.supply = s.supply)
    ∧ ((∀ p m, i ≠ .setJournalMark p m) → t.journal.mark = s.journal.mark)
    ∧ (∀ p, (∀ k, i ≠ .setNoticeEnables p k) → (t.port p).enabled = (s.port p).enabled)
    ∧ ((∀ p a b, i ≠ .linkCheck p a b) → (∀ r, i ≠ .linkCheckTimerExpiry r) → (∀ p, i ≠ .callStart p)
        → (∀ p, i ≠ .resetPart p) → t.linkCheck = s.linkCheck)

/-- With no command waiting, a step is one millisecond (the model's choice, log entry 1): the running time goes on by
one millisecond, its seconds wrapping to 0 from the largest value, each running qualifying timer and link-check timer
counts one, and at 500 ms a line's qualified level becomes its raw level and its timer stops (R149, R156, R169).  Where
nothing falls due, that is all: the ages, the running exclusions, and every other timer count one millisecond, each by
its own rule, and nothing else changes (R5, R10, R14, R16, R60, R61, R68, R79, R83, R96, R99, R109, R110, R122,
R140).  While the reset input is asserted nothing changes (log entry 8). -/
def Obligations.IdleMillisecond : Prop :=
  let counted (p : Pause) : Pause := if p.held = true then p else { p with remaining := p.remaining - 1 }
  ∀ s : State, s.pending = [] → ∃ t : State, step s = .next t ∧ t.pending = []
    ∧ (s.resetAsserted = true → t = s)
    ∧ (s.resetAsserted = false →
        (s.journal.clock.ms < 1000 → s.journal.clock.sec < 4294967296 →
          t.journal.clock.ms < 1000
          ∧ t.journal.clock.total = (s.journal.clock.total + 1) % (4294967296 * 1000))
        ∧ (∀ l, match (s.supply.line l).timer with
            | none => t.supply.line l = s.supply.line l
            | some n => t.supply.line l = if n + 1 < 500 then { s.supply.line l with timer := some (n + 1) }
                else { s.supply.line l with qualified := (s.supply.line l).raw, timer := none })
        ∧ (∀ r, match s.linkCheck.get r with
            | none => t.linkCheck.get r = none
            | some n => t.linkCheck.get r = if n + 1 < 10000 then some (n + 1) else none)
        ∧ (s.NothingDue →
          (∀ i, t.entry i = (s.entry i).map fun e => { e with
            age := match e.state with
              | .held _ => e.age
              | .ranked _ | .lost => if e.pin = true then e.age else e.age + 1
            excludedFor := e.excludedFor.map (· - 1) })
          ∧ (∀ r, t.table.silentHold.get r = (s.table.silentHold.get r).map (· + 1)) ∧ t.table.relax = s.table.relax + 1
          ∧ (∀ r, t.radio r = { s.radio r with
            silence := (s.radio r).silence.map (· + 1), start := (s.radio r).start.map (· + 1)
            take := (s.radio r).take.map (· + 1) })
          ∧ (∀ r, t.surveyOf r = match s.surveyOf r with
            | .running u w x => .running u w (x + 1)
            | .waiting p => .waiting (p.map counted)
            | v => v)
          ∧ t.survey.shared = s.survey.shared.map counted
          ∧ { t.survey with states := s.survey.states, shared := s.survey.shared } = s.survey
          ∧ t.call = { s.call with
            attempts := s.call.attempts.map fun a => { a with setup := a.setup.map (· + 1), answer := a.answer.map (· + 1) }
            backoff := s.call.backoff.map (· + 1), ending := s.call.ending.map (· + 1)
            stagger := (match s.call.stagger with
              | .counting n => .counting (n + 1)
              | v => v)
            part := s.call.part.map fun p => if p.counting = true then { p with timer := p.timer + 1 } else p }
          ∧ { t.journal with clock := s.journal.clock } = s.journal ∧ t.supply.condition = s.supply.condition
          ∧ t.prefs = s.prefs ∧ t.profile = s.profile
          ∧ ∀ p, { t.port p with attention := (s.port p).attention } = s.port p))

/-- The state right after reset has the values that the chapters state for power-on reset (R176 with R22, R50, R52, R72,
R87, R122, R136, R138, R147, R149, R155, R168, R169 and R172); that the input lines stand deasserted is the model's
choice (log entry 7). -/
def Obligations.ResetState : Prop :=
  (∀ i, State.reset.entry i = none) ∧ State.reset.table.relax = 0
    ∧ (∀ r, State.reset.table.silentHold.get r = none)
    ∧ (∀ i, State.reset.prefs.at i = none) ∧ State.reset.prefs.lock = none
    ∧ (∀ r, (State.reset.radio r).state = .off ∧ (State.reset.radio r).queue = []
        ∧ (State.reset.radio r).generations = none ∧ (State.reset.radio r).identity = none
        ∧ (State.reset.radio r).silence = none ∧ (State.reset.radio r).start = none
        ∧ (State.reset.radio r).take = none ∧ (State.reset.radio r).counts = ⟨0, 0, 0, 0, 0⟩)
    ∧ State.reset.survey.mode = .continuous ∧ State.reset.survey.onceDone = false
    ∧ (∀ r, State.reset.surveyOf r = .due ∧ State.reset.survey.owed.get r = false)
    ∧ State.reset.survey.shared = none ∧ State.reset.survey.last = none
    ∧ State.reset.survey.urgent = false ∧ State.reset.survey.operate = 8 ∧ State.reset.survey.pause = 120
    ∧ State.reset.survey.operatePreload = none ∧ State.reset.survey.pausePreload = none
    ∧ State.reset.call.state = .idle ∧ State.reset.call.number = 0 ∧ State.reset.call.startTime = none
    ∧ State.reset.call.nextAttempt = 1 ∧ State.reset.call.attempts = [] ∧ State.reset.call.failures = 0
    ∧ (∀ r, State.reset.call.radioFailures.get r = 0) ∧ State.reset.call.lastFailed = none
    ∧ State.reset.call.carrying = none ∧ State.reset.call.everConnected = false ∧ State.reset.call.recoveries = 0
    ∧ State.reset.call.part = none ∧ State.reset.call.note = none ∧ State.reset.call.backoff = none
    ∧ State.reset.call.ending = none ∧ State.reset.call.stagger = .stopped ∧ State.reset.call.route = none
    ∧ State.reset.call.lineA = false ∧ State.reset.call.lineB = false
    ∧ State.reset.journal.records = [] ∧ State.reset.journal.mark = 24 ∧ State.reset.journal.clock = ⟨0, 0⟩
    ∧ State.reset.supply.condition = .normal ∧ (∀ l, State.reset.supply.line l = ⟨false, false, none⟩)
    ∧ State.reset.profile = ⟨2, 10, 60, 900, ⟨0, 0, 0, 0⟩, 12, .resume, .parallel, 8, 120, true, 6, 20, 60, 500, 20, 600⟩
    ∧ (∀ r, State.reset.linkCheck.get r = none)
    ∧ (∀ p k, (State.reset.port p).pending.has k = false)
    ∧ (∀ p, (State.reset.port p).enabled = portKinds p ∧ (State.reset.port p).response = none
        ∧ (State.reset.port p).attention = false)
    ∧ State.reset.pending = []

/-- The state right after reset is sound, and its blocks fit each other. -/
def Obligations.ResetSound : Prop := State.reset.Sound ∧ State.reset.Linked

/-- Every step leaves a sound state sound: entries and preferences stay in range with no key or code twice and each tier
as the list gives it (R1, R2, R41, R46); the silence timer runs in the working states alone and the start timer in
STARTING (R60, R61); no queue holds two orders of a kind and ORDER is pending exactly while it holds one (R65); the
attempts in flight have different radios and numbers (R87, R94); the voice-route lines follow the route (R136); the
journal holds at most 32 records and JOURNAL is pending exactly while the count has reached the mark (R147, R150, R153);
the attention lines are as R173 says. -/
def Obligations.StepKeepsSound : Prop := ∀ s t : State, s.Sound → step s = .next t → t.Sound

/-- Every step leaves the blocks of a sound state fitting each other: an entry is pinned exactly while an attempt in
flight has it as its target or it stands in the held slot (R13); a radio is ATTEMPTING or IN_CALL exactly while an
attempt in flight, a connected one or a callback leg names it (R53); a survey is RUNNING exactly while its radio is
SURVEYING (R73); the voice route names the radio of the connected leg in CONNECTED, and no other radio at any time
(R136).  With them: which attempts each call state has (R87, R103), when the callback part stands (R138), that an
ATTEMPT order is queued exactly for an attempt in ORDERED (R66, R105), which deadlines run (R108, R117, R131), that the
back-off runs in BACKOFF alone and the ending timer in ENDING alone (R96, R99), and that no POWER SNOOZE waits for a
radio of the call or of the callback part (R66, R158, R159). -/
def Obligations.StepKeepsLinked : Prop := ∀ s t : State, s.Sound → s.Linked → step s = .next t → t.Linked

/-! ### Frames -/

/-- Every well-formed request is read back from its own frame, followed by any number of 0xFF bytes, at every value that
its fields admit (R163, R164, R165). -/
def Obligations.RequestsReadBack : Prop :=
  ∀ (i : Instr) (p : Port) (f : List Byte) (n : Nat), i.wellFormed = true → i.port = some p → i.frame = some f →
    judgePeriod p (f ++ List.replicate n 0xFF#8) = i

/-- The frames that the manual writes out: NO-OP and READ NOTICE as requests, OK, the empty response and the PATTERN
response, and what they stand for on a port (R163, R164, R171, 12_ports_requests_and_notices 12.9). -/
def Obligations.FramesWrittenOut : Prop :=
  (∀ p, (Instr.noOp p).frame = some [0x03#8, 0x01#8, 0x38#8] ∧ (Instr.readNotice p).frame = some [0x03#8, 0x02#8, 0x31#8]
    ∧ judgePeriod p [0x03#8, 0x01#8, 0x38#8, 0xFF#8] = .noOp p ∧ judgePeriod p [0x03#8, 0x02#8, 0x31#8] = .readNotice p
    ∧ judgePeriod p [0x03#8, 0x02#8, 0x30#8] = .frameError p ∧ judgePeriod p [0xFF#8, 0x03#8] = .emptySelectPeriod p
    ∧ judgePeriod p [] = .emptySelectPeriod p)
    ∧ (bare .ok).frame = [0x03#8, 0x00#8, 0x3F#8] ∧ (bare .noneCode).frame = [0x03#8, 0x0F#8, 0x12#8]
    ∧ (⟨.pattern, .patternBytes⟩ : Response).frame.take 10
        = [0x0B#8, 0x11#8, 0x55#8, 0xAA#8, 0x0F#8, 0xF0#8, 0x33#8, 0xCC#8, 0x00#8, 0xFF#8]
    ∧ (⟨.pattern, .patternBytes⟩ : Response).frame.length = 11

/-- A request frame that is cut short, that is followed by a byte other than 0xFF, or whose check byte is another one,
is no request: the period stands for a FRAME_ERROR (R165, steps 2 and 3). -/
def Obligations.DamagedFrames : Prop :=
  ∀ (i : Instr) (p : Port) (f : List Byte), i.wellFormed = true → i.port = some p → i.frame = some f →
    (∀ n, 0 < n → n < f.length → judgePeriod p (f.take n) = .frameError p)
    ∧ (∀ l : List Byte, (∃ b ∈ l, b ≠ 0xFF#8) → judgePeriod p (f ++ l) = .frameError p)
    ∧ (∀ b : Byte, b ≠ frameCheck f.dropLast → judgePeriod p (f.dropLast ++ [b]) = .frameError p)

/-! ### Select periods and requests by port -/

/-- The reset input (R176): while it is asserted the attention and voice-route lines are deasserted and no select period
is taken; at its release every block holds its power-on values, the queue of commands apart, and a select period that
stood asserted is ignored until select deasserts, its rest shifting out 0xFF (log entry 34, DESIGN CHOICE). -/
def Obligations.ResetInput : Prop :=
  (∀ s : State, ∃ t : State, exec .resetInputAsserted s = .next t ∧ t.resetAsserted = true
    ∧ (∀ p, (t.port p).attention = false ∧ (t.port p).shiftOut = []) ∧ t.call.lineA = false ∧ t.call.lineB = false)
  ∧ (∀ s : State, ∃ t : State, exec .powerOnReset s = .next t
    ∧ t = { State.reset with
        supply := ⟨SupplyLine.initial s.supply.lowv.raw, SupplyLine.initial s.supply.critv.raw, .normal⟩
        ports := t.ports
        pending := s.pending }
    ∧ ∀ p, t.port p = { State.reset.port p with selected := (s.port p).selected, ignoring := (s.port p).selected })
  ∧ (∀ (s : State) (p : Port) (i : Instr), i.port = some p → (∀ q, i ≠ .selectAssert q) →
      s.resetAsserted = true ∨ (s.port p).ignoring = true →
      ∃ t : State, exec i s = .next t
        ∧ t.port p = { s.port p with
            selected := false, ignoring := false, shiftOut := [], attention := (t.port p).attention }
        ∧ t.table = s.table ∧ t.prefs = s.prefs ∧ t.radios = s.radios ∧ t.survey = s.survey ∧ t.call = s.call
        ∧ t.journal = s.journal ∧ t.supply = s.supply ∧ t.profile = s.profile ∧ t.linkCheck = s.linkCheck
        ∧ t.resetAsserted = s.resetAsserted ∧ t.pending = s.pending
        ∧ ∀ q, q ≠ p → (t.port q).response = (s.port q).response ∧ (t.port q).pending = (s.port q).pending)

/-- The assertion of select begins shifting out the pending response, or the empty response, and changes nothing else; a
period without a request leaves no pending response, and changes nothing else but the attention lines, which follow the
pending and enabled kinds of every port whose select is deasserted (R163, R173). -/
def Obligations.SelectPeriods : Prop :=
  (∀ (s : State) (p : Port), s.resetAsserted = false → (s.port p).selected = false →
    exec (.selectAssert p) s = .next (s.mapPort p fun x =>
      { x with
        selected := true
        shiftOut := match x.response with
          | some r => r.frame
          | none => [0x03#8, 0x0F#8, 0x12#8] }))
  ∧ (∀ (s : State) (p : Port), s.Listens p → ∃ t : State, exec (.emptySelectPeriod p) s = .next t
      ∧ { t with ports := s.ports } = s
      ∧ (∀ q, (t.port q).response = (if q = p then none else (s.port q).response)
        ∧ (t.port q).selected = (if q = p then false else (s.port q).selected)
        ∧ (t.port q).pending = (s.port q).pending ∧ (t.port q).enabled = (s.port q).enabled
        ∧ ((t.port q).selected = true → (t.port q).attention = (s.port q).attention)
        ∧ ((t.port q).selected = false →
            (t.port q).attention = noticeOrder.any fun k => (s.port q).pending.has k && (s.port q).enabled.has k)))

/-- Requests that are refused before any owner handles them.  A frame that fails the checks is answered FRAME_ERROR or
UNKNOWN_REQUEST, with no field and no other effect, and the radio is not heard (R165).  A request that the port may not
send is answered DENIED: from the station port it has no effect, from a radio port the radio is heard and nothing else
happens (R166).  While a radio is OFF, every request of its port that R55 handles, ANNOUNCE apart, is answered
NOT_ANNOUNCED and changes nothing (R55). -/
def Obligations.RefusedOnThePort : Prop :=
  (∀ (s : State) (p : Port), s.Listens p →
    exec (.frameError p) s = .next ((s.opened p).answered p (bare .frameError))
    ∧ exec (.unknownRequest p) s = .next ((s.opened p).answered p (bare .unknownRequest)))
  ∧ (∀ (s : State) (i : Instr), senders i = some .radioOnly → i.port = some .station → s.Listens .station →
    exec i s = .next ((s.opened .station).answered .station (bare .denied)))
  ∧ (∀ (s : State) (i : Instr) (r : Radio), senders i = some .stationOnly → i.port = some (.radio r) →
    s.Listens (.radio r) → s.linkCheck.get r = none →
    exec i s = .next ((s.heardOn r).answered (.radio r) (bare .denied)))
  ∧ ∀ (s : State) (i : Instr) (r : Radio), senders i = some .every ∨ senders i = some .radioOnly →
    i.port = some (.radio r) → (∀ p g n, i ≠ .announce p g n) → s.Listens (.radio r) → s.linkCheck.get r = none →
    (s.radio r).state = .off →
    exec i s = .next ((s.opened (.radio r)).answered (.radio r) (bare .notAnnounced))

/-- Being heard (R56): it returns the silence timer of a working radio to 0 and changes nothing else; in OFF, STARTING,
SNOOZE and FAULT it changes nothing.  A SILENT radio recovers as the profile says (R63, R9, R11): under RESUME it is
READY with its silence timer at 0, its HELD entries return and RADIO is posted, which is stated for a call that looks
for no entry; under RESTART it is STARTING with its start timer at 0, its queue empty in NORMAL, its survey DUE and its
entries LOST.  In both its silent-hold time stops, and nothing else changes but the other radio's queue, the scheduler,
and the TABLE and ORDER notices. NO-OP is answered OK on every port, and on a radio port its one effect is that the
radio is heard (R166). -/
def Obligations.HeardAndNoOp : Prop :=
  (∀ (s : State) (r : Radio),
    ((s.radio r).state = .ready ∨ (s.radio r).state = .surveying ∨ (s.radio r).state = .attempting
        ∨ (s.radio r).state = .inCall →
      (s.heard r).radio r = { s.radio r with silence := some 0 }
      ∧ (s.heard r).radio (otherRadio r) = s.radio (otherRadio r) ∧ { s.heard r with radios := s.radios } = s)
    ∧ ((s.radio r).state = .off ∨ (s.radio r).state = .starting ∨ (s.radio r).state = .snooze
        ∨ (s.radio r).state = .fault → s.heard r = s))
  ∧ (∀ (s t : State) (r : Radio), (s.radio r).state = .silent → t = s.heard r →
    s.profile.recovery = .restart
      ∨ (s.call.state ≠ .seeking ∧ s.call.state ≠ .placing ∧ s.call.state ≠ .recovering) →
    t.call = s.call ∧ t.journal = s.journal ∧ s.settingsKept t ∧ t.linkCheck = s.linkCheck ∧ t.pending = s.pending
    ∧ s.radioKept t (otherRadio r)
    ∧ t.table.silentHold = s.table.silentHold.set r none ∧ t.table.relax = s.table.relax
    ∧ s.portsKept t (fun p k => tableNotice p k ∨ orderNotice p k
        ∨ (s.profile.recovery = .resume ∧ p = .station ∧ k = .radio))
    ∧ (s.profile.recovery = .resume →
      t.radio r = { s.radio r with state := .ready, silence := some 0, start := none, queue := (t.radio r).queue }
      ∧ (t.port .station).pending.radio = true ∧ s.entriesReturned t r)
    ∧ (s.profile.recovery = .restart →
      t.radio r = { s.radio r with
        state := .starting, silence := none, start := some 0, take := none, queue := (t.radio r).queue }
      ∧ (s.supply.condition = .normal → (t.radio r).queue = []) ∧ t.surveyOf r = .due ∧ s.entriesRestarted t r))
  ∧ ∀ (s h : State) (p : Port), s.Hands p h → exec (.noOp p) s = .next (h.answered p (bare .ok))

/-! ### Notices -/

/-- The notices of a port (R172).  READ NOTICE answers NONE when no kind is both pending and enabled, and else the kind
of highest priority among them with the pending set as it stands after the request; an event kind so returned leaves the
set, a condition kind stays.  SET NOTICE ENABLES makes the named kinds the port's enable set, or is answered RANGE and
changes nothing when one of them is not a kind of the port: CALL to JOURNAL for the station, ORDER for a radio (R164,
R172). -/
def Obligations.Notices : Prop :=
  (∀ (s h : State) (p : Port), s.Hands p h →
    ((∀ k, ((h.port p).pending.has k && (h.port p).enabled.has k) = false) →
      exec (.readNotice p) s = .next (h.answered p (bare .noneCode)))
    ∧ (∀ (before after : List NoticeKind) (k : NoticeKind), noticeOrder = before ++ k :: after →
        (∀ j ∈ before, ((h.port p).pending.has j && (h.port p).enabled.has j) = false) →
        (h.port p).pending.has k = true → (h.port p).enabled.has k = true →
        ∃ n : NoticeSet,
          (∀ j, n.has j = ((h.port p).pending.has j && (j != k || k == .journal || k == .order)))
          ∧ exec (.readNotice p) s
              = .next ((h.mapPort p fun x => { x with pending := n }).answered p ⟨.ok, .notice k n⟩)))
  ∧ (∀ (s h : State) (p : Port) (kinds : Nat), s.Hands p h → kinds < 256 →
    ((match p with
      | .station => kinds < 128
      | .radio _ => kinds = 0 ∨ kinds = 128) →
      ∃ n : NoticeSet, (∀ k, n.has k = kinds.testBit k.code)
        ∧ exec (.setNoticeEnables p kinds) s
            = .next ((h.mapPort p fun x => { x with enabled := n }).answered p (bare .ok)))
    ∧ (¬ (match p with
      | .station => kinds < 128
      | .radio _ => kinds = 0 ∨ kinds = 128) →
      exec (.setNoticeEnables p kinds) s = .next (h.answered p (bare .range))))

/-! ### The ranked list -/

/-- The ranked list holds each FRESH, STEADY or FADING entry once, with its slot, and nothing else, in order of score,
then of tier, then of slot; the rank of a slot is its position (R19). -/
def Obligations.RankedListOrder : Prop :=
  ∀ s : State,
    (∀ i e, (i, e) ∈ s.ranked ↔ s.entry i = some e ∧ ∃ h, e.state = .ranked h)
    ∧ (s.ranked.map (·.1)).Nodup
    ∧ (∀ (n m : Nat) (x y : Nat × Entry), s.ranked[n]? = some x → s.ranked[m]? = some y → n < m →
        y.2.score < x.2.score ∨ (y.2.score = x.2.score ∧ (y.2.tier < x.2.tier ∨ (y.2.tier = x.2.tier ∧ x.1 < y.1))))
    ∧ (∀ i n, s.rankOf i = some n ↔ ∃ e, s.ranked[n]? = some (i, e))

/-- READ RANKED (R167) in RANK order: from the station port the entries at ranks start, start + 1 and so on, from a
radio port those positions of the radio's own entries in rank order, until the count is reached or the list ends, with
the number of entries in the list read; a start above 47, a count of 0 or above 8 and, at the station, an order other
than the two are answered RANGE.  In ALTERNATE order at the station it gives the first items of a sequence that holds
each entry at or above the start rank once, each radio's in rank order, begins with the entry at the start rank, and
follows an entry with one of the same radio only when the other radio's entries are used up.  Nothing changes. -/
def Obligations.ReadRanked : Prop :=
  (∀ (s h : State) (p : Port) (start count order : Nat), s.Hands p h →
    (47 < start ∨ count = 0 ∨ 8 < count ∨ (p = .station ∧ 1 < order) →
      exec (.readRanked p start count order) s = .next (h.answered p (bare .range)))
    ∧ (start ≤ 47 → 1 ≤ count → count ≤ 8 → (p = .station → order = 0) →
      ∃ l : List (Nat × Entry),
        (match p with
          | .station => l = h.ranked
          | .radio r => l = h.ranked.filter fun x => x.2.radio == r)
        ∧ ∃ items : List Summary, items.length = min count (l.length - start)
          ∧ (∀ n x, items[n]? = some x → ∃ i e, l[start + n]? = some (i, e)
              ∧ x = ⟨i, e.radio, e.network, e.generation, e.cell, e.state, e.tier, e.score⟩)
          ∧ exec (.readRanked p start count order) s = .next (h.answered p ⟨.ok, .ranked l.length items⟩)))
  ∧ (∀ (s h : State) (start count : Nat), s.Hands .station h → start ≤ 47 → 1 ≤ count → count ≤ 8 →
    ∃ l : List (Nat × Entry),
      (∀ r, (l.filter fun x => x.2.radio == r) = (h.ranked.drop start).filter fun x => x.2.radio == r)
      ∧ l.head? = h.ranked[start]?
      ∧ (∀ (before after : List (Nat × Entry)) (x y : Nat × Entry), l = before ++ x :: y :: after →
          x.2.radio = y.2.radio → ∀ z ∈ after, z.2.radio = y.2.radio)
      ∧ exec (.readRanked .station start count 1) s
          = .next (h.answered .station ⟨.ok, .ranked h.ranked.length ((l.take count).map fun x =>
              ⟨x.1, x.2.radio, x.2.network, x.2.generation, x.2.cell, x.2.state, x.2.tier, x.2.score⟩)⟩))

/-! ### What the read requests return -/

/-- READ ENTRY returns every field of an occupied slot with its rank, the state FREE for a free one, and RANGE for a
slot above 47 (R21); READ RADIO returns the fields of the table of R70 for radio A or B, and RANGE for another; a radio
port's of either is answered DENIED.  READ PROFILE returns the profile as last taken, and READ PREFERENCE an index's
content with the lock, its boundary and its direction, or RANGE above index 15 (R168, R48).  None changes anything. -/
def Obligations.ReadRequests : Prop :=
  ((∀ (s : State) (slot : Nat), s.Listens .station →
    (47 < slot → exec (.readEntry .station slot) s = .next ((s.opened .station).answered .station (bare .range)))
    ∧ (slot ≤ 47 → s.entry slot = none →
        exec (.readEntry .station slot) s = .next ((s.opened .station).answered .station ⟨.ok, .entry none⟩))
    ∧ (∀ e, slot ≤ 47 → s.entry slot = some e →
        ∃ rank : Option Nat, (∀ n, rank = some n ↔ (s.ranked[n]?).map (·.1) = some slot)
          ∧ exec (.readEntry .station slot) s
              = .next ((s.opened .station).answered .station ⟨.ok, .entry (some (e, rank))⟩)))
  ∧ (∀ (s : State) (n : Nat), s.Listens .station →
    (1 < n → exec (.readRadio .station n) s = .next ((s.opened .station).answered .station (bare .range)))
    ∧ (∀ r : Radio, n = Radio.code r →
        ∃ v : RadioView, exec (.readRadio .station n) s = .next ((s.opened .station).answered .station ⟨.ok, .radio v⟩)
          ∧ v.radio = r ∧ v.state = (s.radio r).state ∧ v.generations = (s.radio r).generations
          ∧ v.identity = (s.radio r).identity
          ∧ v.silence = (s.radio r).silence.map (fun t => 2 ^ s.profile.exponent - t)
          ∧ v.start = (s.radio r).start.map (fun t => 30000 - t)
          ∧ v.queue.map (·.1) = (s.radio r).queue.map Order.kind
          ∧ (∀ (i k : Nat) (x : OrderKind × Option Nat), v.queue[i]? = some x →
              (x.2 = some k ↔ ∃ o, (s.radio r).queue[i]? = some o
                ∧ ((∃ a b c d e, o = .attempt k a b c d e) ∨ ∃ a, o = .cancel k a)))
          ∧ v.counts = (s.radio r).counts ∧ v.failures = s.call.radioFailures.get r))
  ∧ ∀ (s : State) (r : Radio) (n : Nat), s.Listens (.radio r) → s.linkCheck.get r = none →
    exec (.readEntry (.radio r) n) s = .next ((s.heardOn r).answered (.radio r) (bare .denied))
    ∧ exec (.readRadio (.radio r) n) s = .next ((s.heardOn r).answered (.radio r) (bare .denied)))
  ∧ (∀ s : State, s.Listens .station →
    exec (.readProfile .station) s = .next ((s.opened .station).answered .station ⟨.ok, .profile s.profile⟩)
    ∧ (∀ i, 15 < i →
        exec (.readPreference .station i) s = .next ((s.opened .station).answered .station (bare .range)))
    ∧ (∀ i, i ≤ 15 → ∃ locked : Bool,
        (locked = true ↔ ∃ l, s.prefs.lock = some l
          ∧ ((l.direction = .lower ∧ i < l.boundary) ∨ (l.direction = .upper ∧ l.boundary ≤ i)))
        ∧ exec (.readPreference .station i) s = .next ((s.opened .station).answered .station
            ⟨.ok, .prefRead i (s.prefs.at i) locked s.prefs.lock⟩)))

/-- READ CALL returns the fields of the table of R101 as they stand, the times of the call and of each attempt by the
model's difference of running times (log entry 23); a radio port's is answered DENIED.  READ STATUS returns the supply
monitor's fields (R162), the survey scheduler's fields with the effective values of R75 (R86), and the link-check modes
with the time that is left (R174).  Neither changes anything. -/
def Obligations.ReadCallAndStatus : Prop :=
  ((∀ s : State, s.Listens .station →
    ∃ v : CallView, exec (.readCall .station) s = .next ((s.opened .station).answered .station ⟨.ok, .call v⟩)
      ∧ v.state = s.call.state ∧ v.number = s.call.number
      ∧ v.running = (if s.call.state = .idle ∨ s.call.state = .callback then none else s.call.startTime.map s.since)
      ∧ v.nextAttempt = s.call.nextAttempt
      ∧ v.attempts = s.call.attempts.map (fun a => ⟨a.number, a.radio, a.slot, a.step, s.since a.ordered, a.disposition⟩)
      ∧ v.failures = s.call.failures ∧ v.radioFailures = s.call.radioFailures ∧ v.lastFailed = s.call.lastFailed
      ∧ v.carrying = s.call.carrying ∧ v.everConnected = s.call.everConnected ∧ v.recoveries = s.call.recoveries
      ∧ v.backoff = s.call.backoff.map (fun t => min 16000 (s.profile.backoff * 2 ^ min (s.call.failures - 1) 4) - t)
      ∧ v.ending = s.call.ending.map (fun t => 5000 - t)
      ∧ (∀ t, s.call.stagger = .counting t → v.stagger = some (s.profile.stagger * 1000 - t))
      ∧ ((∀ t, s.call.stagger ≠ .counting t) → v.stagger = none)
      ∧ v.route = s.call.route
      ∧ v.part = s.call.part.map (fun p => ⟨p.length, p.length - p.timer, p.counting, p.held, p.offer⟩))
  ∧ ∀ (s : State) (r : Radio), s.Listens (.radio r) → s.linkCheck.get r = none →
    exec (.readCall (.radio r)) s = .next ((s.heardOn r).answered (.radio r) (bare .denied)))
  ∧ (∀ s : State, s.Listens .station →
    ∃ v : StatusView, exec (.readStatus .station) s = .next ((s.opened .station).answered .station ⟨.ok, .status v⟩)
      ∧ v.condition = s.supply.condition
      ∧ v.lowv = ⟨s.supply.lowv.raw, s.supply.lowv.qualified, s.supply.lowv.timer.map (fun t => 500 - t)⟩
      ∧ v.critv = ⟨s.supply.critv.raw, s.supply.critv.qualified, s.supply.critv.timer.map (fun t => 500 - t)⟩
      ∧ v.mode = s.survey.mode
      ∧ v.effective = (if s.supply.condition = .critical ∧ s.survey.mode ≠ .off then .paused else s.survey.mode)
      ∧ v.onceDone = s.survey.onceDone
      ∧ v.arrangement = (if s.supply.condition = .normal then s.profile.arrangement else .alternate)
      ∧ v.urgent = s.survey.urgent ∧ v.operate = s.survey.operate ∧ v.pause = s.survey.pause
      ∧ v.operatePreload = s.survey.operatePreload ∧ v.pausePreload = s.survey.pausePreload ∧ v.last = s.survey.last
      ∧ (∀ r, (v.surveys.get r).state = s.surveyOf r
          ∧ (v.surveys.get r).owed = (if s.survey.mode = .once then some (s.survey.owed.get r) else none)
          ∧ (∀ u, s.surveyOf r = .ordered u → (v.surveys.get r).urgent = some u ∧ (v.surveys.get r).window = none
              ∧ (v.surveys.get r).pause = none)
          ∧ (∀ u w t, s.surveyOf r = .running u w t → (v.surveys.get r).urgent = some u
              ∧ (v.surveys.get r).window = some (w + 2000 - t) ∧ (v.surveys.get r).pause = none)
          ∧ (s.surveyOf r = .due → (v.surveys.get r).urgent = none ∧ (v.surveys.get r).window = none
              ∧ (v.surveys.get r).pause = none)
          ∧ (∀ q, s.surveyOf r = .waiting (some q) → (v.surveys.get r).pause = some q)
          ∧ (s.surveyOf r = .waiting none → (v.surveys.get r).pause = s.survey.shared))
      ∧ (∀ r, v.linkCheck.get r = (s.linkCheck.get r).map (fun t => 10000 - t)))

/-! ### The journal -/

/-- TAKE JOURNAL is answered EMPTY and changes nothing when the list is empty; otherwise the oldest record leaves the
head of the list and is returned with every field and the unread count after the removal (R151).  SET JOURNAL MARK with
a mark of 0 or above 32 is answered RANGE and changes nothing; a mark of 1 to 32 becomes the mark and is answered OK
with the mark and the unread count (R152).  After either, JOURNAL is pending exactly while the unread count has reached
the mark (R153).  Nothing else changes.  A radio port's is answered DENIED. -/
def Obligations.JournalRequests : Prop :=
  ((∀ s : State, s.Listens .station →
    (s.journal.records = [] →
      exec (.takeJournal .station) s = .next ((s.opened .station).answered .station (bare .empty)))
    ∧ (∀ x rest, s.journal.records = x :: rest →
      exec (.takeJournal .station) s
        = .next ((({ s.opened .station with journal := { s.journal with records := rest } } : State).mapPort .station
            fun q => { q with pending := { q.pending with journal := decide (s.journal.mark ≤ rest.length) } }).answered
            .station ⟨.ok, .record x rest.length⟩)))
  ∧ ∀ (s : State) (r : Radio), s.Listens (.radio r) → s.linkCheck.get r = none →
    exec (.takeJournal (.radio r)) s = .next ((s.heardOn r).answered (.radio r) (bare .denied)))
  ∧ ((∀ (s : State) (mark : Nat), s.Listens .station →
    (mark = 0 ∨ 32 < mark →
      exec (.setJournalMark .station mark) s = .next ((s.opened .station).answered .station (bare .range)))
    ∧ (1 ≤ mark → mark ≤ 32 →
      exec (.setJournalMark .station mark) s
        = .next ((({ s.opened .station with journal := { s.journal with mark := mark } } : State).mapPort .station
            fun q => { q with pending := { q.pending with journal := decide (mark ≤ s.journal.records.length) } }).answered
            .station ⟨.ok, .mark mark s.journal.records.length⟩)))
  ∧ ∀ (s : State) (r : Radio) (mark : Nat), s.Listens (.radio r) → s.linkCheck.get r = none →
    exec (.setJournalMark (.radio r) mark) s = .next ((s.heardOn r).answered (.radio r) (bare .denied)))

/-- Records written join the tail with the running time and gap 0; of what is written, the list keeps the last 32, and
the record at its head counts in its gap, up to 255, the records that were overwritten just before it; every other
record keeps all its fields (R147, R149, R150). -/
def Obligations.JournalKeepsLast32 : Prop :=
  ∀ (s : State) (xs : List JournalRecord), recordsSound s.journal.records → (∀ x ∈ s.journal.records, x.gap ≤ 255) →
    let all := s.journal.records ++ xs.map fun x => { x with time := s.journal.clock.sec, gap := 0 }
    let lost := all.length - 32
    let kept := (xs.foldl State.writeRecord s).journal.records
    kept.tail = (all.drop lost).tail
      ∧ kept.length = min 32 all.length
      ∧ (∀ x, kept.head? = some x → ∃ y, (all.drop lost).head? = some y
          ∧ x = { y with gap := if lost = 0 then y.gap else min 255 ((all.head?.map (·.gap)).getD 0 + lost) })
      ∧ (xs.foldl State.writeRecord s).journal.mark = s.journal.mark
      ∧ (xs.foldl State.writeRecord s).journal.clock = s.journal.clock

/-! ### Link-check mode and resets -/

/-- LINK CHECK is answered BUSY outside IDLE, RANGE for a port or a setting out of range, and otherwise turns the named
port's mode on with its timer at 0, or off; the expiry of the timer turns the mode off (R169).  Nothing else
changes.  In link-check mode every request on a radio port is answered PATTERN, and its one other effect is that the
radio is heard: an ANNOUNCE does not recover a SILENT radio (R63, R171, log entry 18). -/
def Obligations.LinkCheckMode : Prop :=
  ((∀ (s : State) (port setting : Nat), s.Listens .station →
    (s.call.state ≠ .idle →
      exec (.linkCheck .station port setting) s = .next ((s.opened .station).answered .station (bare .busy)))
    ∧ (s.call.state = .idle → 1 < port ∨ 1 < setting →
      exec (.linkCheck .station port setting) s = .next ((s.opened .station).answered .station (bare .range)))
    ∧ (∀ r : Radio, s.call.state = .idle → port = Radio.code r → setting ≤ 1 →
      exec (.linkCheck .station port setting) s
        = .next (({ s.opened .station with
            linkCheck := s.linkCheck.set r (if setting = 1 then some 0 else none) } : State).answered .station (bare .ok))))
  ∧ (∀ (s : State) (r : Radio), s.resetAsserted = false →
    exec (.linkCheckTimerExpiry r) s
      = .next ({ s with linkCheck := s.linkCheck.set r none } : State).followLines))
  ∧ (∀ (s : State) (i : Instr) (r : Radio), (senders i).isSome = true → i.port = some (.radio r) → s.Listens (.radio r) →
    (s.linkCheck.get r).isSome = true →
    ((∀ p g n, i ≠ .announce p g n) →
      exec i s = .next ((s.heardOn r).answered (.radio r) ⟨.pattern, .patternBytes⟩))
    ∧ (∀ g n, i = .announce (.radio r) g n →
      exec i s = .next (((s.opened (.radio r)).heardAnnounce r).answered (.radio r) ⟨.pattern, .patternBytes⟩)))

/-- RESET PART is answered BUSY and changes nothing unless the call is IDLE or CALLBACK; otherwise it is answered OK and
performs the soft reset, each block by its own rule (R175, with R22, R71, R72, R102, R137, R154, R169, R172). -/
def Obligations.ResetPart : Prop :=
  ∀ s : State, s.Listens .station →
    (s.call.state ≠ .idle ∧ s.call.state ≠ .callback →
      exec (.resetPart .station) s = .next ((s.opened .station).answered .station (bare .busy)))
    ∧ (s.call.state = .idle ∨ s.call.state = .callback →
      ∃ t : State, exec (.resetPart .station) s = .next (t.answered .station (bare .ok))
        ∧ (∀ i, t.entry i = none) ∧ t.table.relax = 0 ∧ (∀ r, t.table.silentHold.get r = none)
        ∧ (∀ r, t.radio r = State.reset.radio r) ∧ t.call = State.reset.call
        ∧ t.survey = { s.survey with
            owed := ⟨false, false⟩, states := ⟨.due, .due⟩, shared := none, last := none, urgent := false
            operate := s.profile.operate, pause := s.profile.pause, operatePreload := none, pausePreload := none }
        ∧ (∀ r, t.linkCheck.get r = none)
        ∧ t.prefs = s.prefs ∧ t.profile = s.profile ∧ t.journal = s.journal ∧ t.supply = s.supply ∧ t.pending = s.pending
        ∧ (∀ r, (t.port (.radio r)).response = (s.port (.radio r)).response)
        ∧ (∀ p, (t.port p).enabled = (s.port p).enabled)
        ∧ (∀ p k, (t.port p).pending.has k = true ↔ p = .station
            ∧ ((k = .journal ∧ s.journal.mark ≤ s.journal.records.length)
              ∨ (k = .radio ∧ ∃ r, (s.radio r).state ≠ .off))))

/-! ### The preference list -/

/-- LOCK PREFERENCES is answered PROTECTED when the lock flag is set, RANGE for a boundary above 16 or a direction that
is neither, and otherwise takes the lock and is answered OK with the boundary, the direction and the number of indices
locked (R49).  Nothing else changes. -/
def Obligations.LockPreferences : Prop :=
  ∀ (s : State) (w d : Nat), s.Listens .station →
    (s.prefs.lock.isSome = true →
      exec (.lockPreferences .station w d) s = .next ((s.opened .station).answered .station (bare .protectedCode)))
    ∧ (s.prefs.lock = none → 16 < w ∨ 1 < d →
      exec (.lockPreferences .station w d) s = .next ((s.opened .station).answered .station (bare .range)))
    ∧ (s.prefs.lock = none → w ≤ 16 → d = 0 →
      exec (.lockPreferences .station w d) s
        = .next (({ s.opened .station with prefs := { s.prefs with lock := some ⟨w, .lower⟩ } } : State).answered .station
            ⟨.ok, .prefLocked ⟨w, .lower⟩ w⟩))
    ∧ (s.prefs.lock = none → w ≤ 16 → d = 1 →
      exec (.lockPreferences .station w d) s
        = .next (({ s.opened .station with prefs := { s.prefs with lock := some ⟨w, .upper⟩ } } : State).answered .station
            ⟨.ok, .prefLocked ⟨w, .upper⟩ (16 - w)⟩))

/-- A lock that has been taken stands, with its boundary and direction, and every index that it covers keeps its
content, under every command but power-on reset (R49, R50). -/
def Obligations.LockHolds : Prop :=
  ∀ (i : Instr) (s t : State) (l : Lock), exec i s = .next t → i ≠ .powerOnReset → s.prefs.lock = some l →
    t.prefs.lock = some l
    ∧ ∀ n, (l.direction = .lower ∧ n < l.boundary) ∨ (l.direction = .upper ∧ l.boundary ≤ n) → t.prefs.at n = s.prefs.at n

/-- WRITE PREFERENCE (R43 to R46): the refusals in the order of the checks, and a taken write, which sets the named
index alone, clamps the tier to 3, and gives every occupied entry the tier that the list then gives its network code; a
ranked entry whose tier changes is scored anew, every other entry keeps its score, and nothing else changes. -/
def Obligations.WritePreference : Prop :=
  ∀ (s : State) (i empty code tier : Nat) (locked : Bool), s.Listens .station → s.Sound →
    (locked = true ↔ ∃ l, s.prefs.lock = some l
      ∧ ((l.direction = .lower ∧ i < l.boundary) ∨ (l.direction = .upper ∧ l.boundary ≤ i))) →
    let refused (c : RespCode) : Prop :=
      exec (.writePreference .station i empty code tier) s = .next ((s.opened .station).answered .station (bare c))
    let taken (x : Option Preference) (clamped : Bool) : Prop :=
      ∃ t : State, exec (.writePreference .station i empty code tier) s
          = .next (t.answered .station ⟨.ok, .prefWritten i x clamped⟩)
        ∧ t = { s.opened .station with prefs := t.prefs, table := { s.table with slots := t.table.slots } }
        ∧ t.prefs.lock = s.prefs.lock ∧ (∀ j, t.prefs.at j = if j = i then x else s.prefs.at j)
        ∧ (∀ n, s.entry n = none → t.entry n = none)
        ∧ (∀ n e, s.entry n = some e → ∃ e', t.entry n = some e' ∧ e' = { e with tier := e'.tier, score := e'.score }
          ∧ (∀ j q, t.prefs.at j = some q → q.code = e.network → e'.tier = q.tier)
          ∧ ((∀ j q, t.prefs.at j = some q → q.code ≠ e.network) → e'.tier = 1)
          ∧ e'.score = (match e.state with
            | .ranked _ => if e'.tier = e.tier then e.score else scoreOf s.profile.biases e'
            | .held _ | .lost => e.score))
    (1 < empty ∨ 15 < i → refused .range)
    ∧ (empty ≤ 1 → i ≤ 15 → locked = true → refused .protectedCode)
    ∧ (empty = 1 → i ≤ 15 → locked = false → taken none false)
    ∧ (empty = 0 → i ≤ 15 → locked = false → 999999 < code → refused .range)
    ∧ (empty = 0 → i ≤ 15 → locked = false → code ≤ 999999 →
        ((∃ j q, j ≠ i ∧ s.prefs.at j = some q ∧ q.code = code) → refused .duplicate)
        ∧ ((∀ j q, j ≠ i → s.prefs.at j = some q → q.code ≠ code) →
          taken (some ⟨code, min 3 tier⟩) (decide (3 < tier))))

/-! ### The supply monitor -/

/-- A change of a line's raw level away from its qualified level starts its qualifying timer at 0, a change back to it
discards the timer, and a level that does not change does nothing (R156).  Nothing else changes.  That while the reset
input is asserted the raw level alone follows the line, the timer, the qualified level and all else being kept, is the
model's choice (log entry 8, DESIGN CHOICE). -/
def Obligations.SupplyLineChange : Prop :=
  ∀ (s : State) (l : Line) (v : Bool),
    let x := s.supply.line l
    (s.resetAsserted = true → exec (.supplyLineChange l v) s = .next (s.setLine l { x with raw := v }))
    ∧ (s.resetAsserted = false → v = x.raw → exec (.supplyLineChange l v) s = .next s.followLines)
    ∧ (s.resetAsserted = false → v ≠ x.raw → v ≠ x.qualified →
      exec (.supplyLineChange l v) s = .next (s.setLine l { x with raw := v, timer := some 0 }).followLines)
    ∧ (s.resetAsserted = false → v ≠ x.raw → v = x.qualified →
      exec (.supplyLineChange l v) s = .next (s.setLine l { x with raw := v, timer := none }).followLines)

/-- The expiry of a qualifying timer (R156, R157): the qualified level becomes the raw level and the condition follows
the two qualified levels.  A change of the condition posts SUPPLY, stops the stagger when it has left NORMAL, keeps on
entry into CRITICAL the entries of ranks 0 to 7 and the pinned ones alone (R17), and queues POWER orders: SNOOZE under
CRITICAL to every awake radio while the call is IDLE (R159), WAKE under NORMAL to every radio in SNOOZE (R161).  An
expiry of a timer that does not run does nothing (log entry 3). -/
def Obligations.QualifyingTimerExpiry : Prop :=
  ∀ (s : State) (l : Line), s.resetAsserted = false →
    ((s.supply.line l).timer = none → exec (.qualifyingTimerExpiry l) s = .next s.followLines)
    ∧ ((s.supply.line l).timer ≠ none → ∃ t : State, exec (.qualifyingTimerExpiry l) s = .next t.followLines
      ∧ t.supply.line l = ⟨(s.supply.line l).raw, (s.supply.line l).raw, none⟩
      ∧ (∀ m, m ≠ l → t.supply.line m = s.supply.line m)
      ∧ t.supply.condition = (if t.supply.critv.qualified then .critical else if t.supply.lowv.qualified then .low
          else .normal)
      ∧ (t.supply.condition = s.supply.condition → t = { s with supply := t.supply })
      ∧ (t.supply.condition ≠ s.supply.condition →
          (t.port .station).pending.supply = true
          ∧ t.call = (if s.supply.condition = .normal then { s.call with stagger := .stopped } else s.call)
          ∧ (∀ i e, s.entry i = some e → t.supply.condition = .critical →
              t.entry i = if e.pin = true ∨ ∃ n < 8, (s.ranked[n]?).map (·.1) = some i then some e else none)
          ∧ (∀ i, s.entry i = none ∨ t.supply.condition ≠ .critical → t.entry i = s.entry i)
          ∧ (∀ r, { t.radio r with queue := (s.radio r).queue } = s.radio r)
          ∧ (t.supply.condition = .critical → s.call.state = .idle → s.call.part = none →
              ∀ r, (s.radio r).state = .starting ∨ (s.radio r).state = .ready ∨ (s.radio r).state = .surveying →
                .power .snooze ∈ (t.radio r).queue)
          ∧ (t.supply.condition = .normal → ∀ r, (s.radio r).state = .snooze → .power .wake ∈ (t.radio r).queue)
          ∧ t.journal = s.journal ∧ t.prefs = s.prefs ∧ t.profile = s.profile ∧ t.linkCheck = s.linkCheck))

/-- The snooze test (R158 to R161), as the supply monitor applies it at each event that R158 lists, and `begun` at a
CALL START (R89, step 2).  Where snoozing is not permitted, each radio in SNOOZE is queued a POWER WAKE, and that is
all.  Under CRITICAL, with the call IDLE or a callback part present, each radio that is STARTING, READY or SURVEYING and
neither the held nor the offering radio has a POWER SNOOZE queued, and no other radio's POWER orders change.  Under LOW,
with the call IDLE, the rows of the table of R160 hold, by the numbers of the radios' ranked entries.  Nothing changes
but the radios' queues, their ORDER notices and the survey states: a POWER SNOOZE removes a queued SURVEY order, and the
scheduler may order anew (log entry 16). Stated for states in which no order waits for a radio in OFF or FAULT. -/
def Obligations.SnoozeTest : Prop :=
  ∀ (s : State) (begun : Bool), (∀ r, (s.radio r).state = .off ∨ (s.radio r).state = .fault → (s.radio r).queue = []) →
    let t := s.snoozeTest begun
    let sent (r : Radio) (a : PowerAction) : Prop := .power a ∈ (t.radio r).queue
    let kept (r : Radio) : Prop := ∀ a, .power a ∈ (t.radio r).queue ↔ .power a ∈ (s.radio r).queue
    let awake (r : Radio) : Prop :=
      (s.radio r).state = .starting ∨ (s.radio r).state = .ready ∨ (s.radio r).state = .surveying
    let gone (r : Radio) : Prop := (s.radio r).state = .silent ∨ (s.radio r).state = .fault ∨ (s.radio r).state = .off
    let snoozing (r : Radio) : Prop := (s.radio r).state = .snooze ∨ .power .snooze ∈ (s.radio r).queue
    let member (r : Radio) : Prop := ∃ p, s.call.part = some p
      ∧ ((∃ k, p.held = some k ∧ k.radio = r) ∨ ∃ o, p.offer = some o ∧ o.radio = r)
    let number (r : Radio) : Nat := (s.ranked.filter fun x => x.2.radio == r).length
    let low : Prop := s.supply.condition = .low ∧ begun = false ∧ s.call.state = .idle
    let critical : Prop := s.supply.condition = .critical ∧ begun = false ∧ (s.call.state = .idle ∨ s.call.part ≠ none)
    { t with radios := s.radios, survey := s.survey, ports := s.ports } = s ∧ (∀ r, s.radioKept t r)
    ∧ s.portsKept t orderNotice
    ∧ (¬ low → ¬ critical → t.survey = s.survey ∧ ∀ r,
      ((s.radio r).state = .snooze → t.radio r = { s.radio r with
          queue := ((s.radio r).queue.filter fun o => o.kind != .power) ++ [.power .wake] })
      ∧ ((s.radio r).state ≠ .snooze → t.radio r = s.radio r))
    ∧ (critical → ∀ r, (awake r → ¬ member r → sent r .snooze) ∧ (¬ awake r ∨ member r → kept r))
    ∧ (low →
      (awake .A → awake .B → ¬ snoozing .A → ¬ snoozing .B →
        (number .A < number .B → sent .A .snooze ∧ kept .B) ∧ (number .B ≤ number .A → sent .B .snooze ∧ kept .A))
      ∧ (snoozing .A → snoozing .B →
        (number .A < number .B → sent .B .wake ∧ kept .A) ∧ (number .B ≤ number .A → sent .A .wake ∧ kept .B))
      ∧ (∀ r, snoozing r → ¬ snoozing (otherRadio r) → gone (otherRadio r) → sent r .wake ∧ kept (otherRadio r))
      ∧ (∀ r, snoozing r → ¬ snoozing (otherRadio r) → ¬ gone (otherRadio r) → t = s)
      ∧ (¬ snoozing .A → ¬ snoozing .B → ¬ awake .A ∨ ¬ awake .B → t = s))

/-! ### The profile and the survey scheduler -/

/-- SET SURVEY MODE (R74, R75, R77): RANGE for a value that is no mode; otherwise the set mode is written and the
ONCE-done flag cleared, ONCE makes the radios that are neither OFF nor FAULT owe a survey, or completes at once when
there is none. Running surveys and urgent orders stand.  A change of the effective mode to OFF or PAUSED removes every
queued non-urgent SURVEY order and leaves its radio DUE; one to OFF or ONCE discards every pause, own or shared, one to
PAUSED holds them, and one to CONTINUOUS lets them count again from their remaining time (R75).  Under CONTINUOUS, NORMAL
and PARALLEL each radio that is READY and DUE is ordered a survey.  The radios keep all but their queues, and the table,
the call and the journal do not change. -/
def Obligations.SetSurveyMode : Prop :=
  ∀ (s : State) (mode : Nat), s.Listens .station →
    (3 < mode → exec (.setSurveyMode .station mode) s = .next ((s.opened .station).answered .station (bare .range)))
    ∧ (mode ≤ 3 → ∃ t : State, exec (.setSurveyMode .station mode) s = .next (t.answered .station (bare .ok))
      ∧ (mode = 0 → t.survey.mode = .off) ∧ (mode = 2 → t.survey.mode = .continuous)
      ∧ (mode = 3 → t.survey.mode = .paused) ∧ (mode ≠ 1 → t.survey.onceDone = false)
      ∧ (mode = 1 → (∀ r, t.survey.owed.get r = true ↔ (s.radio r).state ≠ .off ∧ (s.radio r).state ≠ .fault)
          ∧ ((∃ r, t.survey.owed.get r = true) → t.survey.mode = .once ∧ t.survey.onceDone = false)
          ∧ ((∀ r, t.survey.owed.get r = false) → t.survey.mode = .off ∧ t.survey.onceDone = true))
      ∧ (∀ r u w x, s.surveyOf r = .running u w x → t.surveyOf r = .running u w x)
      ∧ (∀ r, s.surveyOf r = .ordered true → t.surveyOf r = .ordered true)
      ∧ (t.survey.mode = .off → s.survey.mode ≠ .off →
          t.survey.shared = none ∧ ∀ r p, s.surveyOf r = .waiting p → t.surveyOf r = .due)
      ∧ (t.survey.mode = .once → s.survey.mode ≠ .once → s.supply.condition ≠ .critical →
          t.survey.shared = none ∧ ∀ r p, s.surveyOf r = .waiting p → t.surveyOf r = .due ∨ t.surveyOf r = .ordered false)
      ∧ ((t.survey.mode = .off ∧ s.survey.mode ≠ .off)
          ∨ (t.survey.mode = .paused ∧ s.survey.mode ≠ .paused ∧ s.supply.condition ≠ .critical) →
          ∀ r, s.surveyOf r = .ordered false → (∃ w u, .survey w u ∈ (s.radio r).queue) →
            t.surveyOf r = .due ∧ ∀ o ∈ (t.radio r).queue, o.kind ≠ .survey)
      ∧ (∀ hold : Bool, s.supply.condition ≠ .critical →
          (mode = 3 ∧ s.survey.mode ≠ .paused ∧ hold = true)
            ∨ (mode = 2 ∧ s.survey.mode ≠ .continuous ∧ hold = false) →
          (∀ r p, s.surveyOf r = .waiting p → t.surveyOf r = .waiting (p.map fun x => { x with held := hold }))
          ∧ ((∃ r p, s.surveyOf r = .waiting p) →
            t.survey.shared = s.survey.shared.map fun x => { x with held := hold }))
      ∧ (mode = 2 → s.supply.condition = .normal → s.profile.arrangement = .parallel →
          ∀ r, (s.radio r).state = .ready → s.surveyOf r = .due →
            t.surveyOf r = .ordered false ∧ ∃ w, (t.radio r).queue.getLast? = some (.survey w false))
      ∧ (∀ r, { t.radio r with queue := (s.radio r).queue } = s.radio r)
      ∧ t.table = s.table ∧ t.call = s.call ∧ t.journal = s.journal ∧ t.prefs = s.prefs ∧ t.supply = s.supply
      ∧ t.profile = s.profile ∧ t.linkCheck = s.linkCheck)

/-- SET PROFILE (R168): BUSY outside IDLE, RANGE for a named value that is not defined; otherwise the profile is taken
with every numeric field clamped to its range, the lost time to no less than the fade time and 1 s, and the response
names by their positions the fields that the clamps changed.  The credit-relax timer restarts (R16) and the operate and
pause times go to the preloads (R84).  With no attempt in flight and no callback part: a radio whose silence timer
stands at or above its new time is SILENT at once (R61), one whose silent-hold time does has no unpinned HELD entry left
(R10), and the other radios keep all but their queues.  The entries of the radios that neither happens to follow the new
times (R12): one that is pinned or HELD keeps its state, and a ranked one whose bias or state changed is scored anew
(R38); one made LOST keeps its last score, which for an entry already FADING is the score of the old bias (log entry
31).  Nothing else changes but the scheduler, and the RADIO, TABLE and ORDER notices. -/
def Obligations.SetProfile : Prop :=
  ∀ (s : State) (f : ProfileFields), s.Listens .station →
    (s.call.state ≠ .idle → exec (.setProfile .station f) s = .next ((s.opened .station).answered .station (bare .busy)))
    ∧ (s.call.state = .idle → 1 < f.recovery ∨ 1 < f.arrangement ∨ 1 < f.dual →
      exec (.setProfile .station f) s = .next ((s.opened .station).answered .station (bare .range)))
    ∧ (s.call.state = .idle → f.recovery ≤ 1 → f.arrangement ≤ 1 → f.dual ≤ 1 →
      ∃ (t : State) (changed : List Nat),
        exec (.setProfile .station f) s = .next (t.answered .station ⟨.ok, .clamps changed⟩)
        ∧ t.profile.smoothing = min 6 f.smoothing ∧ t.profile.fade = max 2 (min 60 f.fade)
        ∧ t.profile.lost = max (max 10 (min 600 f.lost)) (t.profile.fade + 1)
        ∧ t.profile.relax = max 60 (min 3600 f.relax)
        ∧ t.profile.biases = ⟨max (-64) (min 63 f.bias2), max (-64) (min 63 f.bias3), max (-64) (min 63 f.bias4),
            max (-64) (min 63 f.bias5)⟩
        ∧ t.profile.exponent = max 8 (min 15 f.exponent)
        ∧ t.profile.recovery = (if f.recovery = 0 then .resume else .restart)
        ∧ t.profile.arrangement = (if f.arrangement = 0 then .parallel else .alternate)
        ∧ t.profile.operate = max 1 (min 60 f.operate) ∧ t.profile.pause = max 5 (min 3600 f.pause)
        ∧ t.profile.staggered = decide (f.dual = 1) ∧ t.profile.stagger = max 2 (min 30 f.stagger)
        ∧ t.profile.setup = max 5 (min 60 f.setup) ∧ t.profile.answer = max 10 (min 180 f.answer)
        ∧ t.profile.backoff = min 5000 f.backoff ∧ t.profile.exclusion = min 300 f.exclusion
        ∧ t.profile.window = min 3600 f.window
        ∧ (∀ n, n ∈ changed ↔ (n = 0 ∧ t.profile.smoothing ≠ f.smoothing) ∨ (n = 1 ∧ t.profile.fade ≠ f.fade)
          ∨ (n = 2 ∧ t.profile.lost ≠ f.lost) ∨ (n = 3 ∧ t.profile.relax ≠ f.relax)
          ∨ (n = 4 ∧ t.profile.biases.b2 ≠ f.bias2) ∨ (n = 5 ∧ t.profile.biases.b3 ≠ f.bias3)
          ∨ (n = 6 ∧ t.profile.biases.b4 ≠ f.bias4) ∨ (n = 7 ∧ t.profile.biases.b5 ≠ f.bias5)
          ∨ (n = 8 ∧ t.profile.exponent ≠ f.exponent) ∨ (n = 11 ∧ t.profile.operate ≠ f.operate)
          ∨ (n = 12 ∧ t.profile.pause ≠ f.pause) ∨ (n = 14 ∧ t.profile.stagger ≠ f.stagger)
          ∨ (n = 15 ∧ t.profile.setup ≠ f.setup) ∨ (n = 16 ∧ t.profile.answer ≠ f.answer)
          ∨ (n = 17 ∧ t.profile.backoff ≠ f.backoff) ∨ (n = 18 ∧ t.profile.exclusion ≠ f.exclusion)
          ∨ (n = 19 ∧ t.profile.window ≠ f.window))
        ∧ t.table.relax = 0
        ∧ (s.call.attempts = [] → s.call.part = none →
          let h := s.opened .station
          let silent (r : Radio) : Prop := ∃ n, (s.radio r).silence = some n ∧ 2 ^ t.profile.exponent ≤ n
          let ended (r : Radio) : Prop := ∃ n, s.table.silentHold.get r = some n ∧ t.profile.lost * 1000 ≤ n
          ((∀ r, ¬ silent r) → t.survey.pausePreload = some t.profile.pause
            ∧ (t.survey.operatePreload = some t.profile.operate
              ∨ (t.survey.operatePreload = none ∧ t.survey.operate = t.profile.operate)))
          ∧ t.call = s.call ∧ t.journal = s.journal ∧ t.prefs = s.prefs ∧ t.supply = s.supply ∧ t.linkCheck = s.linkCheck
          ∧ h.portsKept t (fun p k => tableNotice p k ∨ orderNotice p k ∨ (p = .station ∧ k = .radio))
          ∧ (∀ r, silent r →
            t.radio r = { s.radio r with state := .silent, silence := none, start := none, queue := (t.radio r).queue }
            ∧ t.table.silentHold.get r = some 0 ∧ (t.port .station).pending.radio = true
            ∧ ∀ i e, t.entry i = some e → e.radio = r → ∀ g, e.state ≠ .ranked g)
          ∧ (∀ r, ¬ silent r → s.radioKept t r
            ∧ (ended r → t.table.silentHold.get r = none
              ∧ ∀ i e, t.entry i = some e → e.radio = r → e.pin = false → ∀ g, e.state ≠ .held g)
            ∧ (¬ ended r → t.table.silentHold.get r = s.table.silentHold.get r))
          ∧ (∀ i, s.entry i = none → t.entry i = none)
          ∧ (∀ i e, s.entry i = some e → ¬ silent e.radio → ¬ ended e.radio →
            let rescored (x : Entry) : Entry := match x.state with
              | .ranked _ =>
                if s.profile.biases.forGeneration e.generation = t.profile.biases.forGeneration e.generation
                    ∧ x.state = e.state then x
                else { x with score := scoreOf t.profile.biases x }
              | .held _ | .lost => x
            (e.pin = true → t.entry i = some (rescored e))
            ∧ (e.pin = false → (∀ g, e.state = .held g → t.entry i = some e)
              ∧ (e.state = .lost → t.entry i = if e.age < 4 * (t.profile.lost * 1000) then some e else none)
              ∧ (∀ g, e.state = .ranked g →
                  (e.age < t.profile.fade * 1000 → t.entry i = some (rescored e))
                  ∧ (t.profile.fade * 1000 ≤ e.age → e.age < t.profile.lost * 1000 →
                    t.entry i = some (rescored { e with state := .ranked .fading }))
                  ∧ (t.profile.lost * 1000 ≤ e.age → e.age < 4 * (t.profile.lost * 1000) →
                    t.entry i = some { e with
                      state := .lost
                      score := if g = .fading then e.score
                        else scoreOf t.profile.biases { e with state := .ranked .fading } })
                  ∧ (4 * (t.profile.lost * 1000) ≤ e.age → t.entry i = none))))))

/-- The change of the effective arrangement (R76), by a SET PROFILE in NORMAL and by a change of the supply condition
(R75, R157). From PARALLEL to ALTERNATE each WAITING radio loses its own pause and stays WAITING, and the shared pause
is the one of smallest remaining time among them; from ALTERNATE to PARALLEL each WAITING radio has an own pause equal
to the shared one, which is discarded.  A pause is counting or held as it was, but for a change into or out of CRITICAL
under CONTINUOUS, which holds the pauses or lets them count (R75).  RUNNING surveys and the last surveyed radio are kept
in both, and under SET PROFILE, where no silence timer runs out, ORDERED ones are. -/
def Obligations.ArrangementChange : Prop :=
  let parallel (s : State) : Prop := s.supply.condition = .normal ∧ s.profile.arrangement = .parallel
  let arranged (s t : State) (q : Pause → Pause) : Prop :=
    (parallel s → ¬ parallel t →
      (∀ r p, s.surveyOf r = .waiting p → t.surveyOf r = .waiting none)
      ∧ (∀ r p, s.surveyOf r = .waiting (some p) →
        (∀ x, s.surveyOf (otherRadio r) = .waiting (some x) → p.remaining < x.remaining ∨ p = x) →
        t.survey.shared = some (q p))
      ∧ ((∀ r p, s.surveyOf r ≠ .waiting (some p)) → t.survey.shared = none))
    ∧ (¬ parallel s → parallel t →
      t.survey.shared = none ∧ ∀ r p, s.surveyOf r = .waiting p → t.surveyOf r = .waiting (s.survey.shared.map q))
    ∧ (∀ r u w x, s.surveyOf r = .running u w x → t.surveyOf r = .running u w x)
    ∧ t.survey.last = s.survey.last
  (∀ (s : State) (f : ProfileFields), s.Listens .station → s.call.state = .idle → f.recovery ≤ 1 → f.arrangement ≤ 1 →
    f.dual ≤ 1 → s.supply.condition = .normal →
    (∀ r n, (s.radio r).silence = some n → n < 2 ^ max 8 (min 15 f.exponent)) →
    ∃ (t : State) (l : List Nat), exec (.setProfile .station f) s = .next (t.answered .station ⟨.ok, .clamps l⟩)
      ∧ t.profile.arrangement = (if f.arrangement = 0 then .parallel else .alternate) ∧ t.supply = s.supply
      ∧ arranged s t id ∧ ∀ r u, s.surveyOf r = .ordered u → t.surveyOf r = .ordered u)
  ∧ ∀ (s : State) (l : Line), s.resetAsserted = false → (s.supply.line l).timer ≠ none →
    ∃ t : State, exec (.qualifyingTimerExpiry l) s = .next t.followLines ∧ t.profile = s.profile
      ∧ (s.supply.condition ≠ .critical → t.supply.condition ≠ .critical → arranged s t id)
      ∧ (s.survey.mode = .continuous → s.supply.condition ≠ t.supply.condition →
        s.supply.condition = .critical ∨ t.supply.condition = .critical →
        arranged s t fun p => { p with held := decide (t.supply.condition = .critical) })

/-- The end of a survey (R80, R81, R82, R83): SURVEY DONE on a radio that is not RUNNING is answered STALE and changes
nothing, and a window-timer expiry there does nothing (log entry 3).  On a RUNNING one both end the survey, the one with
the answer OK, and the radio is no longer RUNNING: with the call IDLE and no urgent request, a SURVEYING radio returns
to READY, it is the last surveyed one, and it rests as the set mode, the supply condition and the arrangement say; in
ONCE it leaves the owed set, and the last one to leave completes the round. -/
def Obligations.SurveyEnds : Prop :=
  let ended (r : Radio) (h t : State) : Prop :=
    (∀ u w x, t.surveyOf r ≠ .running u w x)
    ∧ (h.call.state = .idle → h.survey.urgent = false → (h.radio r).state = .surveying →
      let wait : Nat := h.survey.pausePreload.getD h.survey.pause
      let rest : Pause :=
        ⟨(if h.supply.condition = .normal then wait else min 3600 (2 * wait)) * 1000,
          decide (h.survey.mode = .paused ∨ h.supply.condition = .critical)⟩
      (t.radio r).state = .ready ∧ t.survey.last = some r ∧ t.call = h.call ∧ t.journal = h.journal
      ∧ (t.port .station).pending.radio = true
      ∧ (h.survey.mode = .continuous ∨ h.survey.mode = .paused →
          t.survey.pause = wait ∧ t.survey.pausePreload = none ∧ t.survey.mode = h.survey.mode
          ∧ (h.supply.condition = .normal → h.profile.arrangement = .parallel → t.surveyOf r = .waiting (some rest))
          ∧ (h.supply.condition ≠ .normal ∨ h.profile.arrangement = .alternate →
              t.surveyOf r = .waiting none ∧ t.survey.shared = some rest))
      ∧ (h.survey.mode = .off → t.surveyOf r = .due)
      ∧ (h.survey.mode = .once → t.survey.owed.get r = false
          ∧ (h.supply.condition ≠ .critical → t.surveyOf r = .due)
          ∧ (h.survey.owed.get r = true → h.survey.owed.get (otherRadio r) = false →
              t.survey.mode = .off ∧ t.survey.onceDone = true)))
  (∀ (s : State) (r : Radio), s.Speaks r →
    ((∀ u w x, (s.heardOn r).surveyOf r ≠ .running u w x) →
      exec (.surveyDone (.radio r)) s = .next ((s.heardOn r).answered (.radio r) (bare .stale)))
    ∧ (∀ u w x, (s.heardOn r).surveyOf r = .running u w x → ∃ t : State,
      exec (.surveyDone (.radio r)) s = .next (t.answered (.radio r) (bare .ok)) ∧ ended r (s.heardOn r) t))
  ∧ (∀ (s : State) (r : Radio), s.resetAsserted = false →
    ((∀ u w x, s.surveyOf r ≠ .running u w x) → exec (.windowTimerExpiry r) s = .next s.followLines)
    ∧ (∀ u w x, s.surveyOf r = .running u w x → ∃ t : State,
      exec (.windowTimerExpiry r) s = .next t.followLines ∧ ended r s t))

/-- Urgent surveys (R85).  A CALL START that finds no candidate orders an urgent survey of every radio that is READY and
neither RUNNING nor ORDERED urgent already, with the operate time in force, the preload first; the other radios keep
their survey states.  While the request stands, with the call SEEKING and no candidate, the end of a survey, DONE or by
its window, and the entry of a radio into READY order one of that radio.  A CALL END in SEEKING ends the request: every
queued urgent order is removed, and RUNNING surveys run on. -/
def Obligations.UrgentSurveys : Prop :=
  let ordered (h t : State) (r : Radio) : Prop :=
    t.surveyOf r = .ordered true
    ∧ (t.radio r).queue.getLast? = some (.survey (h.survey.operatePreload.getD h.survey.operate * 1000) true)
  let barren (h : State) (r : Radio) : Prop := ∀ i e, h.entry i = some e → e.excludedFor ≠ none ∨ e.state = .lost
    ∨ (e.radio ≠ r ∧ ((∀ g, e.state ≠ .ranked g) ∨ ¬ h.Open e.radio))
  let again (h t : State) (r : Radio) : Prop :=
    ordered h t r ∧ (t.radio r).state = .ready ∧ t.survey.urgent = true ∧ t.call = h.call
  (∀ s : State, s.Listens .station →
    let h := s.opened .station
    (h.call.state = .idle → h.call.attempts = [] → h.call.part = none → (∀ i e, ¬ h.Candidate i e) →
      ∃ t : State, exec (.callStart .station) s = .next (t.answered .station (bare .ok)) ∧ t.survey.urgent = true
        ∧ (∀ r, (h.radio r).state = .ready → (∀ u w x, h.surveyOf r ≠ .running u w x) → h.surveyOf r ≠ .ordered true →
          ordered h t r)
        ∧ (∀ r, (h.radio r).state ≠ .ready ∨ (∃ u w x, h.surveyOf r = .running u w x) ∨ h.surveyOf r = .ordered true →
          t.surveyOf r = h.surveyOf r))
    ∧ (h.call.state = .seeking → h.call.attempts = [] → h.call.part = none →
      (∀ r, h.surveyOf r = .ordered true ↔ ∃ w, .survey w true ∈ (h.radio r).queue) →
      ∃ t : State, exec (.callEnd .station) s = .next (t.answered .station (bare .ok)) ∧ t.survey.urgent = false
        ∧ (∀ r, t.surveyOf r ≠ .ordered true ∧ ∀ w, .survey w true ∉ (t.radio r).queue)
        ∧ (∀ r u w x, h.surveyOf r = .running u w x → t.surveyOf r = .running u w x)))
  ∧ (∀ (s : State) (r : Radio) (u : Bool) (w x : Nat), s.call.state = .seeking → s.call.part = none →
    s.survey.urgent = true → (s.radio r).state = .surveying → s.surveyOf r = .running u w x →
    (s.resetAsserted = false → barren s r → ∃ t : State, exec (.windowTimerExpiry r) s = .next t.followLines
      ∧ again s t r ∧ t.survey.last = some r)
    ∧ (s.Speaks r → barren (s.heardOn r) r → ∃ t : State,
      exec (.surveyDone (.radio r)) s = .next (t.answered (.radio r) (bare .ok))
      ∧ again (s.heardOn r) t r ∧ t.survey.last = some r))
  ∧ ∀ (s : State) (r : Radio), s.Speaks r →
    let h := s.heardOn r
    h.call.state = .seeking → h.call.part = none → h.survey.urgent = true → (h.radio r).state = .starting → barren h r →
    h.surveyOf r = .due ∨ (∃ p, h.surveyOf r = .waiting p) →
    ∃ t : State, exec (.moduleStatus (.radio r) 1 0) s = .next (t.answered (.radio r) (bare .ok)) ∧ again h t r

/-- Pause expiry (R83, R77): a counting pause of a radio's own leaves the radio DUE, or ORDERED at once where
CONTINUOUS, NORMAL and PARALLEL find it READY; the shared pause leaves no radio WAITING, and where CONTINUOUS finds both
READY and both were WAITING the order goes to the radio other than the last surveyed, to A when there is none.  An
expiry of a pause that does not count does nothing (log entry 3).  Nothing but the scheduler, the queues and their ORDER
notices changes. -/
def Obligations.PauseExpiries : Prop :=
  (∀ (s : State) (r : Radio), s.resetAsserted = false →
    ((∀ n, s.surveyOf r ≠ .waiting (some ⟨n, false⟩)) → exec (.pauseExpiry r) s = .next s.followLines)
    ∧ (∀ n, s.surveyOf r = .waiting (some ⟨n, false⟩) → ∃ t : State, exec (.pauseExpiry r) s = .next t.followLines
      ∧ { t with survey := s.survey, radios := s.radios, ports := s.ports } = s ∧ s.portsKept t orderNotice
      ∧ (∀ q, { t.radio q with queue := (s.radio q).queue } = s.radio q)
      ∧ ((s.radio r).state ≠ .ready → t.surveyOf r = .due)
      ∧ (s.survey.mode = .continuous → s.supply.condition = .normal → s.profile.arrangement = .parallel →
          (s.radio r).state = .ready → t.surveyOf r = .ordered false
          ∧ (t.radio r).queue.getLast?
              = some (.survey (s.survey.operatePreload.getD s.survey.operate * 1000) false))))
  ∧ (∀ s : State, s.resetAsserted = false →
    ((∀ n, s.survey.shared ≠ some ⟨n, false⟩) → exec .sharedPauseExpiry s = .next s.followLines)
    ∧ (∀ n, s.survey.shared = some ⟨n, false⟩ → ∃ t : State, exec .sharedPauseExpiry s = .next t.followLines
      ∧ { t with survey := s.survey, radios := s.radios, ports := s.ports } = s ∧ s.portsKept t orderNotice
      ∧ (∀ q, { t.radio q with queue := (s.radio q).queue } = s.radio q)
      ∧ t.survey.shared = none ∧ (∀ r p, t.surveyOf r ≠ .waiting p)
      ∧ (∀ first, first = (s.survey.last.map otherRadio).getD .A →
          s.survey.mode = .continuous → s.supply.condition ≠ .critical →
          s.supply.condition = .low ∨ s.profile.arrangement = .alternate →
          (∀ r, (s.radio r).state = .ready ∧ ∃ p, s.surveyOf r = .waiting p) →
          t.surveyOf first = .ordered false ∧ t.surveyOf (otherRadio first) = .due)))

/-! ### The reach table's timers -/

/-- The age thresholds of an entry that is not pinned (R5, R6, R7): FRESH or STEADY becomes FADING and is scored anew at
the fade time, FADING becomes LOST and keeps its score at the lost time, LOST is freed at four times the lost time.  The
event acts whatever the age, and brings the age to the threshold if it is below it (log entry 4, DESIGN CHOICE).  The
event of a slot that is free, pinned or in another state does nothing (log entry 3).  TABLE is posted when the available
count has passed between 0 and above 0 (R20); nothing else changes. -/
def Obligations.AgeThresholds : Prop :=
  ∀ (s : State) (i : Nat), s.resetAsserted = false →
    let leaves (c : Instr) (x : Option Entry) : Prop :=
      ∃ t : State, exec c s = .next t.followLines ∧ t.entry i = x ∧ (∀ j, j ≠ i → t.entry j = s.entry j)
        ∧ { t with table := s.table, ports := s.ports } = s ∧ { t.table with slots := s.table.slots } = s.table
        ∧ (t.port .station).pending.table
            = ((s.port .station).pending.table || (decide (s.available = 0) != decide (t.available = 0)))
        ∧ (∀ p k, p ≠ .station ∨ k ≠ .table → (t.port p).pending.has k = (s.port p).pending.has k)
    (∀ e, s.entry i = some e → e.pin = false → e.state = .ranked .fresh ∨ e.state = .ranked .steady →
      max e.age (s.profile.fade * 1000) < s.profile.lost * 1000 →
      ∀ x : Entry, x = { e with state := .ranked .fading, age := max e.age (s.profile.fade * 1000) } →
        leaves (.fadeTimeReached i) (some { x with score := scoreOf s.profile.biases x }))
    ∧ (∀ e, s.entry i = some e → e.pin = false → e.state = .ranked .fading → e.age < 4 * (s.profile.lost * 1000) →
      0 < s.profile.lost →
      leaves (.lostTimeReached i) (some { e with state := .lost, age := max e.age (s.profile.lost * 1000) }))
    ∧ (∀ e, s.entry i = some e → e.pin = false → e.state = .lost → leaves (.entryRelease i) none)
    ∧ ((∀ e, s.entry i = some e → e.pin = true ∨ (e.state ≠ .ranked .fresh ∧ e.state ≠ .ranked .steady)) →
      exec (.fadeTimeReached i) s = .next s.followLines)
    ∧ ((∀ e, s.entry i = some e → e.pin = true ∨ e.state ≠ .ranked .fading) →
      exec (.lostTimeReached i) s = .next s.followLines)
    ∧ ((∀ e, s.entry i = some e → e.pin = true ∨ e.state ≠ .lost) → exec (.entryRelease i) s = .next s.followLines)

/-- The silent-hold time of a radio makes its unpinned HELD entries LOST and stops (R10); the end of an exclusion clears
it (R14), and with the call not looking for an entry nothing else changes; the credit-relax timer moves every credit one
step toward 8, scores anew the ranked entries whose credit changed, and restarts at 0 (R16).  A silent-hold time or an
exclusion that does not run does nothing (log entry 3).  Nothing else changes but the TABLE notice. -/
def Obligations.TableTimers : Prop :=
  ∀ s : State, s.resetAsserted = false →
    (∀ r, (s.table.silentHold.get r = none → exec (.silentHoldExpiry r) s = .next s.followLines)
      ∧ (∀ n, s.table.silentHold.get r = some n → ∃ t : State, exec (.silentHoldExpiry r) s = .next t.followLines
        ∧ { t with table := s.table, ports := s.ports } = s ∧ s.portsKept t tableNotice
        ∧ t.table.silentHold = s.table.silentHold.set r none ∧ t.table.relax = s.table.relax
        ∧ (∀ i, s.entry i = none → t.entry i = none)
        ∧ (∀ i e, s.entry i = some e →
          (e.radio ≠ r ∨ e.pin = true ∨ (∀ g, e.state ≠ .held g) → t.entry i = some e)
          ∧ (∀ g, e.radio = r → e.pin = false → e.state = .held g → 0 < s.profile.lost →
            t.entry i = if e.age < 4 * (s.profile.lost * 1000) then
                some { e with state := .lost, age := max e.age (s.profile.lost * 1000) } else none))))
    ∧ (∀ i, ((∀ e, s.entry i = some e → e.excludedFor = none) → exec (.exclusionExpiry i) s = .next s.followLines)
      ∧ (∀ e n, s.entry i = some e → e.excludedFor = some n → s.call.state ≠ .seeking → s.call.state ≠ .placing →
        s.call.state ≠ .recovering → ∃ t : State, exec (.exclusionExpiry i) s = .next t.followLines
        ∧ { t with table := s.table, ports := s.ports } = s ∧ s.portsKept t tableNotice
        ∧ { t.table with slots := s.table.slots } = s.table
        ∧ t.entry i = some { e with excludedFor := none } ∧ (∀ j, j ≠ i → t.entry j = s.entry j)))
    ∧ ∃ t : State, exec .creditRelaxExpiry s = .next t.followLines
      ∧ { t with table := s.table, ports := s.ports } = s ∧ s.portsKept t tableNotice
      ∧ t.table.silentHold = s.table.silentHold ∧ t.table.relax = 0 ∧ (∀ i, s.entry i = none → t.entry i = none)
      ∧ (∀ i e, s.entry i = some e → ∃ c, c = (if e.credit < 8 then e.credit + 1 else if 8 < e.credit then e.credit - 1
            else 8)
          ∧ ((∃ g, e.state = .ranked g) ∧ c ≠ e.credit →
              t.entry i = some { e with credit := c, score := scoreOf s.profile.biases { e with credit := c } })
          ∧ (¬ ((∃ g, e.state = .ranked g) ∧ c ≠ e.credit) → t.entry i = some { e with credit := c }))

/-! ### Announcements, faults and silence -/

/-- ANNOUNCE (R57, R11, R29, R74): a list that is empty, longer than 4 or holds a value outside 2 to 5 is answered RANGE
and does nothing but have the radio heard, which never recovers a SILENT radio (log entry 18); a valid one is answered
OK and restarts the context in every state.  With no attempt in flight and no callback part (RadioLost states the
others): the radio is STARTING with its start timer at 0 and its intake counts at 0, it holds the generations and the
identity announced, its queue is empty when the supply condition is NORMAL, its survey is DUE and it owes a survey in
ONCE; its entries lose their pins and are LOST, with an age raised to the lost time, or freed from four times the lost
time on, those already LOST too (log entry 24), and its silent-hold time stops.  Nothing else changes but the survey
scheduler, the other radio's queue, the TABLE notice at the station and the ORDER notices. -/
def Obligations.Announce : Prop :=
  ∀ (s : State) (r : Radio) (gens : List Nat) (identity : Nat), s.Listens (.radio r) → s.linkCheck.get r = none →
    (gens = [] ∨ 4 < gens.length ∨ (∃ g ∈ gens, g < 2 ∨ 5 < g) →
      exec (.announce (.radio r) gens identity) s
        = .next (((s.opened (.radio r)).heardAnnounce r).answered (.radio r) (bare .range)))
    ∧ (gens ≠ [] → gens.length ≤ 4 → (∀ g ∈ gens, 2 ≤ g ∧ g ≤ 5) → s.call.attempts = [] → s.call.part = none →
      0 < s.profile.lost →
      ∃ (t : State) (x : GenerationSet), exec (.announce (.radio r) gens identity) s
          = .next (t.answered (.radio r) (bare .ok))
        ∧ (∀ g, x.has g = true ↔ g ∈ gens)
        ∧ t.radio r = ⟨.starting, some x, some identity, none, some 0, (t.radio r).queue, none, ⟨0, 0, 0, 0, 0⟩⟩
        ∧ (s.supply.condition = .normal → (t.radio r).queue = [])
        ∧ s.radioKept t (otherRadio r)
        ∧ t.surveyOf r = .due ∧ (s.survey.mode = .once → t.survey.owed.get r = true)
        ∧ t.table.silentHold = s.table.silentHold.set r none ∧ t.table.relax = s.table.relax
        ∧ s.entriesRestarted t r
        ∧ (s.opened (.radio r)).portsKept t (fun p k => tableNotice p k ∨ orderNotice p k)
        ∧ t.call = s.call ∧ t.journal = s.journal ∧ t.prefs = s.prefs ∧ t.supply = s.supply ∧ t.profile = s.profile
        ∧ t.linkCheck = s.linkCheck)

/-- MODULE STATUS and the start timer (R58, R60, R64, R9): RANGE for a fault that is no flag, or for no fault and a
ready that is no flag; no change, with the answer OK, outside STARTING or without ready, and for any content in
FAULT.  Ready in STARTING makes the radio READY with its silence timer at 0 and returns its HELD entries; a radio whose
survey is DUE or WAITING is DUE at once, whatever the mode (R78), and is ordered one where R77 allows; with the call IDLE
nothing else of the table, the call and the journal changes.  Fault, and the expiry of a running start timer, make
it FAULT, with no attempt in flight and no callback part: its timers stop, its queue is empty, its ranked entries are
HELD, its survey is DUE and owed no more, and RADIO is posted.  An expiry of a start timer that does not run does
nothing (log entry 3). -/
def Obligations.ModuleStatusAndStart : Prop :=
  let faulted (r : Radio) (h t : State) : Prop :=
    t.radio r = { h.radio r with state := .fault, silence := none, start := none, queue := [], take := none }
    ∧ { t.radio (otherRadio r) with queue := (h.radio (otherRadio r)).queue } = h.radio (otherRadio r)
    ∧ (t.port .station).pending.radio = true ∧ t.surveyOf r = .due
    ∧ (h.survey.mode = .once → t.survey.owed.get r = false)
    ∧ h.entriesHeld t r
    ∧ t.call = h.call ∧ t.journal = h.journal ∧ t.prefs = h.prefs ∧ t.supply = h.supply ∧ t.profile = h.profile
  (∀ (s : State) (r : Radio) (ready fault : Nat), s.Speaks r →
    let h := s.heardOn r
    (1 < fault ∨ (fault = 0 ∧ 1 < ready) →
      exec (.moduleStatus (.radio r) ready fault) s = .next (h.answered (.radio r) (bare .range)))
    ∧ (fault = 0 → ready = 0 ∨ (ready = 1 ∧ (h.radio r).state ≠ .starting) →
      exec (.moduleStatus (.radio r) ready fault) s = .next (h.answered (.radio r) (bare .ok)))
    ∧ (fault = 1 → (h.radio r).state = .fault →
      exec (.moduleStatus (.radio r) ready fault) s = .next (h.answered (.radio r) (bare .ok)))
    ∧ (fault = 0 → ready = 1 → (h.radio r).state = .starting → h.call.state = .idle → ∃ t : State,
      exec (.moduleStatus (.radio r) ready fault) s = .next (t.answered (.radio r) (bare .ok))
      ∧ t.radio r = { h.radio r with state := .ready, silence := some 0, start := none, queue := (t.radio r).queue }
      ∧ { t.radio (otherRadio r) with queue := (h.radio (otherRadio r)).queue } = h.radio (otherRadio r)
      ∧ (t.port .station).pending.radio = true
      ∧ h.entriesReturned t r
      ∧ (∀ p, t.surveyOf r ≠ .waiting p)
      ∧ (h.surveyOf r = .due ∨ (∃ p, h.surveyOf r = .waiting p) → h.survey.urgent = false →
        (h.survey.mode = .off ∨ h.survey.mode = .paused ∨ h.supply.condition = .critical → t.surveyOf r = .due)
        ∧ (h.survey.mode = .continuous → h.supply.condition = .normal → h.profile.arrangement = .parallel →
          t.surveyOf r = .ordered false))
      ∧ t.table.silentHold = h.table.silentHold ∧ t.table.relax = h.table.relax
      ∧ t.call = h.call ∧ t.journal = h.journal ∧ t.prefs = h.prefs ∧ t.supply = h.supply ∧ t.profile = h.profile)
    ∧ (fault = 1 → (h.radio r).state ≠ .fault → h.call.attempts = [] → h.call.part = none → ∃ t : State,
      exec (.moduleStatus (.radio r) ready fault) s = .next (t.answered (.radio r) (bare .ok)) ∧ faulted r h t))
  ∧ (∀ (s : State) (r : Radio), s.resetAsserted = false →
    ((s.radio r).start = none → exec (.startTimerExpiry r) s = .next s.followLines)
    ∧ ((s.radio r).start ≠ none → s.call.attempts = [] → s.call.part = none → ∃ t : State,
      exec (.startTimerExpiry r) s = .next t.followLines ∧ faulted r s t))

/-- The expiry of a running silence timer (R62, R8, R10), with no attempt in flight and no callback part: the radio is
SILENT, no survey runs on it and no SURVEY order is left for it, its CANCEL and CALLBACK orders stay queued, its ranked
entries are HELD with its silent-hold time at 0, and RADIO is posted; nothing else of the table, the call and the
journal changes.  An expiry of a timer that does not run does nothing (log entry 3). -/
def Obligations.SilenceExpiry : Prop :=
  ∀ (s : State) (r : Radio), s.resetAsserted = false →
    ((s.radio r).silence = none → exec (.silenceTimerExpiry r) s = .next s.followLines)
    ∧ ((s.radio r).silence ≠ none → s.call.attempts = [] → s.call.part = none → ∃ t : State,
      exec (.silenceTimerExpiry r) s = .next t.followLines
      ∧ t.radio r = { s.radio r with state := .silent, silence := none, start := none, queue := (t.radio r).queue }
      ∧ (∀ o ∈ (t.radio r).queue, o.kind ≠ .survey)
      ∧ (∀ o, o.kind = .cancel ∨ o.kind = .callback → (o ∈ (t.radio r).queue ↔ o ∈ (s.radio r).queue))
      ∧ { t.radio (otherRadio r) with queue := (s.radio (otherRadio r)).queue } = s.radio (otherRadio r)
      ∧ (∀ u w x, t.surveyOf r ≠ .running u w x)
      ∧ (t.port .station).pending.radio = true
      ∧ t.table.silentHold = s.table.silentHold.set r (some 0) ∧ t.table.relax = s.table.relax
      ∧ s.entriesHeld t r
      ∧ t.call = s.call ∧ t.journal = s.journal ∧ t.prefs = s.prefs ∧ t.supply = s.supply ∧ t.profile = s.profile
      ∧ t.linkCheck = s.linkCheck)

/-- A radio is lost, by silence, a fault, the start timer or an ANNOUNCE, while the call needs it (R57, R62, R64, R114,
R146). The lone wanted attempt on it fails with the cause RADIO_SILENT or RADIO_FAULT, its counts rise and the call
waits in BACKOFF where the base is above 0 (R96, R112).  The connected leg on it is DROPPED: the route is NONE, the
recoveries rise, and the call is RECOVERING on the other radio, or SEEKING (R116, R135).  An attempt with a disposition
ends: in ENDING the ending completes, in CONNECTED the surplus loser alone is gone.  In CALLBACK the held radio's loss
ends the part and the call is IDLE, with a CALLBACK END for another offering radio, the loss of another offering radio
ends its offer, and that of a third radio changes nothing.  A callback leg on it is DROPPED and the call ends, in
CALLBACK with its held radio or in IDLE without one; the held radio lost beside another radio's leg leaves the
part.  The other radio keeps all but its queue, a connected leg's loss apart. -/
def Obligations.RadioLost : Prop :=
  ∀ (s h : State) (r : Radio) (i : Instr) (c : Cause) (v : RadioState) (ends : State → State),
    s.Loses r i h c v ends → h.journal.records.length < 31 →
    let leaves (l : List JournalRecord → Prop) (p : State → Prop) : Prop := ∃ (t : State) (x : List JournalRecord),
      exec i s = .next (ends t) ∧ (t.radio r).state = v ∧ h.radioKept t (otherRadio r) ∧ h.settingsKept t
      ∧ l x ∧ h.Journals t x ∧ p t
    (h.call.part = none →
      (∀ a, h.call.attempts = [a] → a.radio = r → a.disposition = none → a.step ≠ .connected → a.connected = none →
        h.call.state = .placing ∨ h.call.state = .recovering → 0 < h.profile.backoff →
        h.call.failures ≤ 255 → (∀ q, h.call.radioFailures.get q ≤ 255) →
        leaves (fun l => ∃ x, l = [x] ∧ h.AttemptRecord a (.failed c) none a.ordered x) fun t =>
          t.call = { h.call.blamed r with state := .backoff, attempts := [], backoff := some 0, stagger := .stopped }
          ∧ (t.port .station).pending.call = true)
      ∧ (∀ a b, h.call.attempts = [a] → a.radio = r → a.disposition = none → a.step = .connected → a.connected = some b →
        h.call.state = .connected → h.call.route = some r → h.call.recoveries ≤ 255 → h.call.stagger = .stopped →
        (∀ e, h.entry a.slot = some e → e.radio = r) → ∃ (t : State) (x : JournalRecord), exec i s = .next (ends t)
        ∧ (t.radio r).state = v ∧ h.settingsKept t ∧ h.AttemptRecord a (.dropped c) none b x ∧ h.Journals t [x]
        ∧ (t.port .station).pending.call = true ∧ (t.port .station).pending.route = true
        ∧ t.call.route = none ∧ t.call.lineA = false ∧ t.call.lineB = false ∧ t.call.carrying = none
        ∧ t.call.recoveries = min 255 (h.call.recoveries + 1)
        ∧ ((t.call.state = .seeking ∧ t.call.attempts = []) ∨ (t.call.state = .recovering
          ∧ ∃ y, t.call.attempts = [y] ∧ y.step = .ordered ∧ y.radio = otherRadio r))
        ∧ ((∀ j e, h.entry j = some e → e.radio = r ∨ e.excludedFor ≠ none ∨ (∀ g, e.state ≠ .ranked g)
            ∨ ¬ h.Open e.radio) →
          t.call = { h.call.unrouted with
            state := .seeking, attempts := [], carrying := none, recoveries := min 255 (h.call.recoveries + 1) }
          ∧ t.survey.urgent = true))
      ∧ (∀ a b o, h.call.attempts = [a] → a.radio = r → a.disposition ≠ none → h.call.state = .ending →
        (a.step = .connected ∧ a.connected = some b ∧ o = .dropped c)
          ∨ (a.step ≠ .connected ∧ a.connected = none ∧ b = a.ordered ∧ o = .failed c) →
        (h.call.everConnected = false ∨ h.profile.window = 0 ∨ ∀ n, h.call.note = some n → n.radio = r) →
        leaves (fun l => ∃ x y, l = [x, y] ∧ h.AttemptRecord a o none b x ∧ h.EndRecord .callerEnd y) fun t =>
          t.call = { h.call with state := .idle, attempts := [], startTime := none, carrying := none, ending := none })
      ∧ (∀ a b, bothInFlight a b h.call.attempts → a.radio ≠ r → a.number ≠ b.number → b.radio = r →
        b.disposition = some .surplus → b.step ≠ .connected → b.connected = none → h.call.state = .connected →
        leaves (fun l => ∃ x, l = [x] ∧ h.AttemptRecord b (.failed c) none b.ordered x) fun t =>
          t.call = { h.call with attempts := [a] }))
    ∧ (∀ p, h.call.part = some p → h.call.attempts = [] → h.call.state = .callback →
      (∀ k, p.held = some k → k.radio = r → leaves (· = []) fun t =>
        t.call = { h.call with state := .idle, startTime := none, part := none } ∧ (t.port .station).pending.call = true
        ∧ (∀ j, k.slot = some j → t.Unpinned j)
        ∧ (∀ o, p.offer = some o → o.radio ≠ r → (h.radio o.radio).state ≠ .off → (h.radio o.radio).state ≠ .fault →
          .callback .stop ∈ (t.radio o.radio).queue))
      ∧ ((∀ k, p.held = some k → k.radio ≠ r) → (∃ o, p.offer = some o ∧ o.radio = r) → leaves (· = []) fun t =>
        t.call = { h.call with part := some p.offerGone })
      ∧ ((∀ k, p.held = some k → k.radio ≠ r) → (∀ o, p.offer = some o → o.radio ≠ r) → leaves (· = []) fun t =>
        t.call = h.call))
    ∧ (∀ p o b, h.call.part = some p → p.offer = some o → o.connected = some b → h.call.attempts = [] →
      (h.call.state = .connected ∧ h.call.route = some o.radio)
        ∨ (h.call.state = .ending ∧ h.call.route = none ∧ h.call.lineA = false ∧ h.call.lineB = false) →
      (o.radio = r →
        let ended (l : List JournalRecord) : Prop := ∃ d y, l = [⟨.callbackLeg, h.call.number, some 0, some r,
            (p.held.filter fun k => k.radio == r).map (·.network), (p.held.filter fun k => k.radio == r).map (·.generation),
            (p.held.filter fun k => k.radio == r).map (·.cell), some (.dropped c), none, d, h.journal.clock.sec, 0⟩, y]
          ∧ h.lasted b d ∧ h.EndRecord .callerEnd y
        (∀ k, p.held = some k → k.radio ≠ r → leaves ended fun t =>
          t.call = { h.call.unrouted with
            state := .callback, carrying := none, ending := none, part := some p.offerGone }
          ∧ ((h.radio k.radio).state ≠ .off → (h.radio k.radio).state ≠ .fault →
            .callback (.hold k.network k.cell) ∈ (t.radio k.radio).queue))
        ∧ ((∀ k, p.held = some k → k.radio = r) → leaves ended fun t =>
          t.call = { h.call.unrouted with
            state := .idle, startTime := none, carrying := none, ending := none, part := none }
          ∧ ∀ k j, p.held = some k → k.slot = some j → t.Unpinned j))
      ∧ (o.radio ≠ r →
        (∀ k, p.held = some k → k.radio = r → leaves (· = []) fun t =>
          t.call = { h.call with part := some { p with held := none } } ∧ ∀ j, k.slot = some j → t.Unpinned j)
        ∧ ((∀ k, p.held = some k → k.radio ≠ r) → leaves (· = []) fun t => t.call = h.call)))

/-! ### Cell reports -/

/-- CELL REPORT (R59, R23 to R28): RANGE for a count outside 1 to 6, NOT_READY in SNOOZE and FAULT; reports are handled
one at a time in order; a report that fails the checks of identity, level and quality is IMPLAUSIBLE, one of the lowest
level with a good quality is CONTRADICTORY, and either changes nothing but the intake counts, with its clamps counted,
and posts no notice but TABLE. -/
def Obligations.CellReportChecks : Prop :=
  (∀ (s : State) (r : Radio) (count : Nat) (reports : List RawReport), s.Speaks r →
    let h := s.heardOn r
    (count = 0 ∨ 6 < count →
      exec (.cellReport (.radio r) count reports) s = .next (h.answered (.radio r) (bare .range)))
    ∧ (1 ≤ count → count ≤ 6 → (h.radio r).state = .snooze ∨ (h.radio r).state = .fault →
      exec (.cellReport (.radio r) count reports) s = .next (h.answered (.radio r) (bare .notReady)))
    ∧ (1 ≤ count → count ≤ 6 → s.takesReports r →
      exec (.cellReport (.radio r) count reports) s
        = .next ((h.takeReports r reports).1.answered (.radio r) ⟨.ok, .outcomes (h.takeReports r reports).2⟩)
      ∧ (h.takeReports r reports).2.length = reports.length
      ∧ ∀ l m, reports = l ++ m →
        h.takeReports r reports = (((h.takeReports r l).1.takeReports r m).1,
          (h.takeReports r l).2 ++ ((h.takeReports r l).1.takeReports r m).2)))
  ∧ (∀ (s : State) (r : Radio) (x : RawReport), s.Speaks r → s.takesReports r →
    let h := s.heardOn r
    let c := (h.radio r).counts
    let implausible (n : Nat) : Prop := ∃ t : State,
      s.Reported r x .implausible n { c with implausible := min 65535 (c.implausible + 1) } t ∧ t.table = h.table
    (¬ namesCell (h.radio r) x → implausible 0)
    ∧ (namesCell (h.radio r) x → x.level < -200 ∨ 0 < x.level → implausible 0)
    ∧ (namesCell (h.radio r) x → -200 ≤ x.level → x.level ≤ 0 → 100 ≤ x.quality → implausible (levelMends x))
    ∧ (namesCell (h.radio r) x → -200 ≤ x.level → x.level ≤ -140 → 20 ≤ x.quality → x.quality ≤ 98 →
      ∃ t : State, s.Reported r x .contradictory (mends x) { c with contradictory := min 65535 (c.contradictory + 1) } t
        ∧ t.table = h.table))

/-- The score (R32, R33): the sum of the level, quality, history, tier, generation and fading terms, clamped to 0 to
1023. -/
def Obligations.ScoreFormula : Prop :=
  ∀ (b : Biases) (e : Entry), 2 ≤ e.generation → e.generation ≤ 5 →
    ∃ quality bias fading : Int, (scoreOf b e : Int) = max 0 (min 1023
        ((e.level + 2240) / 4 + quality + 16 * e.credit + 32 * e.tier + bias - fading))
      ∧ (e.quality = none → quality = 96) ∧ (∀ q, e.quality = some q → quality = 8 * q)
      ∧ (e.generation = 2 → bias = b.b2) ∧ (e.generation = 3 → bias = b.b3) ∧ (e.generation = 4 → bias = b.b4)
      ∧ (e.generation = 5 → bias = b.b5)
      ∧ (e.state = .ranked .fading → fading = 128) ∧ (e.state ≠ .ranked .fading → fading = 0)

/-- A report that passes the checks, in every call state (R2, R3, R4, R18, R20, R30, R31, R34, R41): taken for the entry
with its key, it smooths the level of a heard or HELD entry by a step toward the reading, raises the report count and
gives the state by that count, or returns a LOST entry as FRESH with the level of the reading; with no such entry and a
FREE slot, and under CRITICAL with fewer occupied slots than 8 and the pinned ones, it is inserted in the
lowest-numbered FREE slot.  The age is 0, the score is computed, the taken count and the clamps rise, and no other entry
and nothing else changes but the TABLE notice; that is all where the entry was ranked before.  Where it joins the ranked
list, from LOST, from HELD or by insertion, the candidate event follows: in SEEKING, and beside an OPEN stagger, the walk
is made in the state with that whole change (R95, R126; when the event is delivered is log entry 13, the model's
reading), and elsewhere nothing more happens. -/
def Obligations.CellReportTaken : Prop :=
  ∀ (s : State) (r : Radio) (x : RawReport), s.Speaks r → s.takesReports r →
    let h := s.heardOn r
    let c := (h.radio r).counts
    let number (p : Option Entry → Bool) : Nat := ((List.range 48).filter fun i => p (h.entry i)).length
    let holds (i : Nat) (e : Entry) (t : State) : Prop :=
      (∀ j, j ≠ i → t.entry j = h.entry j) ∧ t.entry i = some { e with score := scoreOf h.profile.biases e }
    let joins (i : Nat) (e : Entry) : Prop := ∃ u : State,
      s.Joins r x (mends x) { c with taken := min 65535 (c.taken + 1) } u ∧ holds i e u
    passesChecks (h.radio r) x →
    (∀ i e, h.entry i = some e → e.key = (r, x.network, x.generation, x.cell) →
      (∀ j f, h.entry j = some f → f.key = e.key → j = i) → e.reports ≤ 255 →
      (e.state = .lost → joins i { e with
        level := 16 * mendedLevel x, quality := (mendedQuality x).or e.quality, channel := x.channel, reports := 1
        age := 0, state := .ranked .fresh })
      ∧ (∀ g, e.state = .ranked g ∨ e.state = .held g → ∃ d m : Int, d = 16 * mendedLevel x - e.level
          ∧ m = e.level + (if d = 0 then 0 else if d.natAbs < 2 ^ h.profile.smoothing then (if 0 < d then 1 else -1)
              else d.tdiv (2 ^ h.profile.smoothing))
          ∧ ∃ y : Entry, y = { e with
            level := m, quality := (mendedQuality x).or e.quality, channel := x.channel
            reports := min 255 (e.reports + 1), age := 0
            state := .ranked (if g = .steady ∨ 3 ≤ min 255 (e.reports + 1) then .steady else .fresh) }
          ∧ (e.state = .held g → joins i y)
          ∧ (e.state = .ranked g → ∃ t : State,
            s.Reported r x .taken (mends x) { c with taken := min 65535 (c.taken + 1) } t ∧ holds i y t)))
    ∧ (∀ i, i < 48 → (∀ j e, h.entry j = some e → e.key ≠ (r, x.network, x.generation, x.cell)) →
      (h.supply.condition = .critical → number (·.isSome) < 8 + number (·.any (·.pin))) → h.entry i = none →
      (∀ j, j < i → h.entry j ≠ none) → h.prefs.Sound →
      ∃ tier : Nat, ((∀ j q, h.prefs.at j = some q → q.code ≠ x.network) → tier = 1)
        ∧ (∀ j q, h.prefs.at j = some q → q.code = x.network → tier = q.tier)
        ∧ joins i ⟨r, x.network, x.generation, x.cell, x.channel, 16 * mendedLevel x, mendedQuality x, 1, 8, tier,
            .ranked .fresh, 0, none, false, 0⟩)

/-- A newcomer that finds no FREE slot, or the CRITICAL bound in force, in every call state (R15, R18, R20): the victim is
the lowest-numbered unpinned LOST entry, or with none the unpinned entry of lowest score, the later slot on equal
scores; the newcomer takes the victim's slot when its score is higher, and its candidate event follows as CellReportTaken
says (log entry 13); it is otherwise answered TABLE_FULL, and the table and the call do not change. When every entry is
pinned, which no run reaches and R15 does not speak of, it is TABLE_FULL too (log entry 28, DESIGN CHOICE). -/
def Obligations.CellReportFull : Prop :=
  ∀ (s : State) (r : Radio) (x : RawReport), s.Speaks r → s.takesReports r →
    let h := s.heardOn r
    let c := (h.radio r).counts
    let full : Prop := ∃ t : State,
      s.Reported r x .tableFull (mends x) { c with tableFull := min 65535 (c.tableFull + 1) } t ∧ t.table = h.table
    let number (p : Option Entry → Bool) : Nat := ((List.range 48).filter fun i => p (h.entry i)).length
    passesChecks (h.radio r) x → h.prefs.Sound →
    (∀ j e, h.entry j = some e → e.key ≠ (r, x.network, x.generation, x.cell)) →
    (∀ j, j < 48 → h.entry j ≠ none)
      ∨ (h.supply.condition = .critical ∧ 8 + number (·.any (·.pin)) ≤ number (·.isSome)) →
    ((∀ j e, h.entry j = some e → e.pin = true) → full)
    ∧ (∀ i v tier, h.entry i = some v → v.pin = false →
      (v.state = .lost ∧ (∀ j e, j < i → h.entry j = some e → e.pin = true ∨ e.state ≠ .lost))
        ∨ ((∀ j e, h.entry j = some e → e.pin = true ∨ e.state ≠ .lost)
          ∧ (∀ j e, j ≠ i → h.entry j = some e → e.pin = true ∨ v.score < e.score ∨ (v.score = e.score ∧ j < i))) →
      ((∀ j q, h.prefs.at j = some q → q.code ≠ x.network) ∧ tier = 1)
        ∨ (∃ j q, h.prefs.at j = some q ∧ q.code = x.network ∧ tier = q.tier) →
      ∀ e : Entry, e = ⟨r, x.network, x.generation, x.cell, x.channel, 16 * mendedLevel x, mendedQuality x, 1, 8, tier,
          .ranked .fresh, 0, none, false, scoreOf h.profile.biases e⟩ →
        (e.score ≤ v.score → full)
        ∧ (v.score < e.score → ∃ u : State, s.Joins r x (mends x) { c with taken := min 65535 (c.taken + 1) } u
          ∧ (∀ j, j ≠ i → u.entry j = h.entry j) ∧ u.entry i = some e))

/-! ### Orders -/

/-- TAKE ORDER (R67, R105): EMPTY with an empty queue, otherwise the oldest order leaves the queue and is
returned.  Taking an ATTEMPT stops the take deadline and makes its attempt TAKEN with its setup deadline at 0; a CANCEL
or a CALLBACK is handed over; a SURVEY makes a READY or SURVEYING radio SURVEYING with the window running; a POWER
SNOOZE puts an awake radio to SNOOZE and holds its ranked entries, and ends a RINGING offer of its own that is not the
held radio's, with a CALLBACK END queued (R146); a POWER WAKE starts a SNOOZE radio; in other states an order is handed
over and the radio keeps its state, a SURVEY leaving it no longer ORDERED (log entry 17).  The call, but for an attempt
taken or an offer lost, and the journal do not change. -/
def Obligations.TakeOrder : Prop :=
  ∀ (s : State) (r : Radio), s.Speaks r →
    let h := s.heardOn r
    let offerLost (o : Order) : Prop := o = .power .snooze ∧ h.call.state = .callback
      ∧ ((h.radio r).state = .starting ∨ (h.radio r).state = .ready ∨ (h.radio r).state = .surveying)
      ∧ ∃ p x, h.call.part = some p ∧ p.offer = some x ∧ x.radio = r ∧ x.ring = .ringing
        ∧ ∀ k, p.held = some k → k.radio ≠ r
    ((h.radio r).queue = [] → exec (.takeOrder (.radio r)) s = .next (h.answered (.radio r) (bare .empty)))
    ∧ (∀ o rest, (h.radio r).queue = o :: rest → ∃ t : State,
      exec (.takeOrder (.radio r)) s = .next (t.answered (.radio r) ⟨.ok, .order o⟩)
      ∧ { t.radio (otherRadio r) with queue := (h.radio (otherRadio r)).queue } = h.radio (otherRadio r)
      ∧ t.journal = h.journal ∧ t.prefs = h.prefs ∧ t.supply = h.supply ∧ t.profile = h.profile
      ∧ t.linkCheck = h.linkCheck
      ∧ ((∀ n a b c d e, o ≠ .attempt n a b c d e) → ¬ offerLost o → t.call = h.call)
      ∧ (offerLost o → .callback .stop ∈ (t.radio r).queue
        ∧ ∀ p, h.call.part = some p → t.call = { h.call with part := some p.offerGone })
      ∧ (o ≠ .power .snooze → t.table = h.table)
      ∧ (∀ n a b c d e, o = .attempt n a b c d e →
        t.radio r = { h.radio r with queue := rest, take := none }
        ∧ t.survey = h.survey
        ∧ t.call = { h.call with attempts := h.call.attempts.map fun a =>
            if a.number = n ∧ a.radio = r ∧ a.step = .ordered then { a with step := .taken, setup := some 0 } else a })
      ∧ ((∃ n c, o = .cancel n c) ∨ (∃ a, o = .callback a) →
        t.radio r = { h.radio r with queue := rest } ∧ t.survey = h.survey)
      ∧ (∀ w u, o = .survey w u →
        ((h.radio r).state = .ready ∨ (h.radio r).state = .surveying →
          t.radio r = { h.radio r with state := .surveying, start := none, queue := (t.radio r).queue }
          ∧ t.surveyOf r = .running u w 0)
        ∧ ((h.radio r).state ≠ .ready → (h.radio r).state ≠ .surveying → t.radio r = { h.radio r with queue := rest }
          ∧ ∀ v, t.surveyOf r ≠ .ordered v))
      ∧ (o = .power .snooze →
        ((h.radio r).state = .starting ∨ (h.radio r).state = .ready ∨ (h.radio r).state = .surveying →
          t.radio r = { h.radio r with state := .snooze, silence := none, start := none, queue := (t.radio r).queue }
          ∧ (t.port .station).pending.radio = true ∧ (∀ u w x, t.surveyOf r ≠ .running u w x)
          ∧ h.entriesHeld t r)
        ∧ ((h.radio r).state = .attempting ∨ (h.radio r).state = .inCall ∨ (h.radio r).state = .snooze
            ∨ (h.radio r).state = .fault → t.radio r = { h.radio r with queue := rest } ∧ t.table = h.table
          ∧ t.survey = h.survey))
      ∧ (o = .power .wake →
        ((h.radio r).state = .snooze →
          t.radio r = { h.radio r with
            state := .starting, silence := none, start := some 0, queue := (t.radio r).queue }
          ∧ t.surveyOf r = .due)
        ∧ ((h.radio r).state ≠ .snooze → t.radio r = { h.radio r with queue := rest } ∧ t.survey = h.survey)))

/-! ### The call -/

/-- CALL START (R87, R89, R90, R92 to R94): ACTIVE and no change while a call is in progress.  In IDLE, with no attempt
in flight and no callback part, a new call begins: the link checks end, every radio in SNOOZE is queued a POWER WAKE
under every supply condition (R89, R161), the call number advances, the start time is the running time, the counts and
marks of the last call are cleared; the walk's choice, no radio having failed, is the eligible entry of lowest rank, on
which an attempt is ordered with the call PLACING; with no candidate the call is SEEKING and the urgent request
stands.  In CALLBACK without a RINGING offer the callback part ends first, with a CALLBACK END to the held radio and its
entry unpinned (R145); the call is then as from IDLE, and an ATTEMPT to the held radio stands behind that CALLBACK
END. -/
def Obligations.CallStart : Prop :=
  ∀ s : State, s.Listens .station →
    let h := s.opened .station
    let woken (t : State) : Prop := ∀ r, (h.radio r).state = .snooze → .power .wake ∈ (t.radio r).queue
    let fresh : CallRecord := { h.call with
      number := afterCall h.call.number, startTime := some h.journal.clock, failures := 0, radioFailures := ⟨0, 0⟩
      lastFailed := none, carrying := none, everConnected := false, recoveries := 0, note := none }
    (h.call.state ≠ .idle → h.call.state ≠ .callback →
      exec (.callStart .station) s = .next (h.answered .station (bare .active)))
    ∧ (h.call.state = .idle → h.call.attempts = [] → h.call.part = none → (∀ i e, ¬ h.Candidate i e) → ∃ t : State,
      exec (.callStart .station) s = .next (t.answered .station (bare .ok))
      ∧ t.call = { fresh with state := .seeking } ∧ t.survey.urgent = true ∧ t.linkCheck = ⟨none, none⟩
      ∧ (t.port .station).pending.call = true ∧ t.table = h.table ∧ (∀ r, h.radioKept t r) ∧ t.journal = h.journal
      ∧ h.settingsKept t ∧ woken t)
    ∧ (∀ i e, h.call.state = .idle → h.call.attempts = [] → h.call.part = none →
      h.FirstOf (eligibleOf h.Candidate) i e → ∃ t : State,
      exec (.callStart .station) s = .next (t.answered .station (bare .ok))
      ∧ t.call = { fresh with
          state := .placing, attempts := [h.orderedAttempt i e h.call.nextAttempt]
          nextAttempt := afterAttempt h.call.nextAttempt, stagger := h.staggerAfter }
      ∧ h.Placed t i e h.call.nextAttempt ∧ t.linkCheck = ⟨none, none⟩ ∧ (t.port .station).pending.call = true
      ∧ woken t)
    ∧ (∀ p, h.call.state = .callback → h.call.attempts = [] → h.call.part = some p →
      (∀ o, p.offer = some o → o.ring = .answering) → (∀ i e, ¬ h.Candidate i e) → ∃ t : State,
      exec (.callStart .station) s = .next (t.answered .station (bare .ok))
      ∧ t.call = { fresh with state := .seeking, part := none } ∧ t.linkCheck = ⟨none, none⟩
      ∧ (∀ k, p.held = some k → (h.radio k.radio).state ≠ .off → (h.radio k.radio).state ≠ .fault →
        .callback .stop ∈ (t.radio k.radio).queue)
      ∧ (∀ r, h.radioKept t r) ∧ t.journal = h.journal ∧ h.settingsKept t ∧ woken t)
    ∧ (∀ p i e, h.call.state = .callback → h.call.attempts = [] → h.call.part = some p →
      (∀ o, p.offer = some o → o.ring = .answering) → let u := h.unpinHeld p
      (∀ k j, p.held = some k → k.slot = some j → u.Unpinned j ∧ ∀ m, m ≠ j → u.entry m = h.entry m)
      ∧ ((∀ k, p.held = some k → k.slot = none) → u = h)
      ∧ (u.FirstOf (eligibleOf u.Candidate) i e → ∃ t : State,
        exec (.callStart .station) s = .next (t.answered .station (bare .ok))
        ∧ t.call = { fresh with
            state := .placing, attempts := [h.orderedAttempt i e h.call.nextAttempt], part := none
            nextAttempt := afterAttempt h.call.nextAttempt, stagger := h.staggerAfter }
        ∧ u.Placed t i e h.call.nextAttempt ∧ t.linkCheck = ⟨none, none⟩ ∧ (t.port .station).pending.call = true
        ∧ (∀ k, p.held = some k → (h.radio k.radio).state ≠ .off → (h.radio k.radio).state ≠ .fault →
          .callback .stop ∈ (t.radio k.radio).queue.dropLast
            ∨ (k.radio ≠ e.radio ∧ .callback .stop ∈ (t.radio k.radio).queue))
        ∧ woken t))

/-- CALL END (R91, R98, R100, R117, R119, R139, R145): IDLE and no change in IDLE and in CALLBACK without an ANSWERING
offer, as in CALLBACK without a callback part, which no run reaches (log entry 28); OK and no change in ENDING.  With no
attempt in flight and no callback part a call that was never connected, whose window is 0 or whose noted radio is not
READY or SURVEYING ends at once in IDLE, with its CALL_END record, the exclusions cleared and the route NONE; another
ends in CALLBACK with its part formed and the HOLD queued.  An attempt that its radio has taken, or a leg, is given a
CANCEL and the call is ENDING with the ending timer at 0; an attempt whose order is still queued is
WITHDRAWN.  CallEndOthers states a callback leg, an ANSWERING offer and two attempts. -/
def Obligations.CallEnd : Prop :=
  ∀ s : State, s.Listens .station →
    let h := s.opened .station
    let mayEnd : Prop := h.call.state = .seeking ∨ h.call.state = .placing ∨ h.call.state = .backoff
      ∨ h.call.state = .recovering ∨ h.call.state = .connected
    let stopped : CallRecord := { h.call with
      backoff := none, stagger := .stopped, route := none, lineA := false, lineB := false }
    let ended (reason : EndReason) (x : JournalRecord) : Prop := ∃ d,
      x = ⟨.callEnd, h.call.number, none, none, none, none, none, none, some reason, d, h.journal.clock.sec, 0⟩
      ∧ ∀ b, h.call.startTime = some b → h.lasted b d
    (h.call.state = .idle ∨ (h.call.state = .callback ∧ ∀ p o, h.call.part = some p → p.offer = some o → o.ring = .ringing) →
      exec (.callEnd .station) s = .next (h.answered .station (bare .idle)))
    ∧ (h.call.state = .ending → exec (.callEnd .station) s = .next (h.answered .station (bare .ok)))
    ∧ (mayEnd → h.call.part = none → (h.call.route = none → h.call.lineA = false ∧ h.call.lineB = false) →
      h.journal.records.length < 31 →
      (h.call.attempts = [] → ∃ t : State, exec (.callEnd .station) s = .next (t.answered .station (bare .ok))
        ∧ (∃ x, ended .callerEnd x ∧ t.journal = { h.journal with records := h.journal.records ++ [x] })
        ∧ (t.port .station).pending.call = true ∧ (h.call.state = .seeking → t.survey.urgent = false)
        ∧ (∀ r, h.radioKept t r) ∧ h.settingsKept t ∧ t.linkCheck = h.linkCheck
        ∧ (h.endsIdle [] →
          t.call = { stopped with state := .idle, startTime := none, carrying := none, ending := none }
          ∧ (∀ i, t.entry i = (h.entry i).map fun e => { e with excludedFor := none }))
        ∧ (∀ n, h.endsCallback [] n → ∃ slot : Option Nat,
            (∀ i, slot = some i ↔ i = n.slot ∧ ∃ e, h.entry i = some e ∧ e.key = (n.radio, n.network, n.generation, n.cell))
            ∧ t.call = { stopped with
                state := .callback, carrying := none, ending := none
                part := some ⟨h.profile.window * 1000, 0, true, some ⟨n.radio, n.network, n.generation, n.cell, slot⟩, none⟩ }
            ∧ .callback (.hold n.network n.cell) ∈ (t.radio n.radio).queue
            ∧ (∀ i, t.entry i = (h.entry i).map fun e =>
                { e with excludedFor := none, pin := e.pin || decide (slot = some i) })))
      ∧ (∀ a, h.call.attempts = [a] → a.disposition = none →
        (∀ b c d e f, .attempt a.number b c d e f ∉ (h.radio a.radio).queue) →
        (h.radio a.radio).state ≠ .off → (h.radio a.radio).state ≠ .fault → ∃ t : State,
        exec (.callEnd .station) s = .next (t.answered .station (bare .ok))
        ∧ t.call = { stopped with
            state := .ending, ending := some 0
            attempts := [{ a with disposition := some .cancel, setup := none, answer := none }] }
        ∧ .cancel a.number .callerEnd ∈ (t.radio a.radio).queue ∧ (t.port .station).pending.call = true
        ∧ t.table = h.table ∧ t.journal = h.journal ∧ (∀ r, h.radioKept t r) ∧ h.settingsKept t)
      ∧ (∀ a b c d e f, h.call.attempts = [a] → a.connected = none → (h.radio a.radio).state = .attempting →
        .attempt a.number b c d e f ∈ (h.radio a.radio).queue →
        h.call.everConnected = false ∨ h.profile.window = 0 → ∃ t : State,
        exec (.callEnd .station) s = .next (t.answered .station (bare .ok))
        ∧ t.call = { stopped with state := .idle, startTime := none, carrying := none, ending := none, attempts := [] }
        ∧ (t.radio a.radio).state = .ready ∧ (t.radio a.radio).take = none
        ∧ (∀ o ∈ (t.radio a.radio).queue, o.kind ≠ .attempt) ∧ h.radioKept t (otherRadio a.radio)
        ∧ (∃ x y, ended .callerEnd y ∧ (∃ d, h.lasted a.ordered d
            ∧ x = ⟨.attempt, h.call.number, some a.number, some a.radio, some a.network, some a.generation, some a.cell,
                some .withdrawn, none, d, h.journal.clock.sec, 0⟩)
          ∧ t.journal = { h.journal with records := h.journal.records ++ [x, y] })
        ∧ (∀ i e, t.entry i = some e → i = a.slot → e.pin = false) ∧ h.settingsKept t))

/-- CALL END where more than a lone attempt is at stake (R91, R117, R119, R131, R144, R145).  On a callback leg it
queues a CALLBACK END and the call is ENDING with the route NONE; the part and the leg stand.  On an ANSWERING offer it
withdraws the offer, with a HOLD for the held radio and a CALLBACK END for another, and the window counts from 0.  Of
two attempts, each one that is wanted and taken is given a CANCEL, one whose order is still queued is WITHDRAWN without
a CANCEL, a surplus one keeps its CANCEL and is given no second one, and the call is ENDING.  Two that are both still
queued are both withdrawn, in the order of the attempts in flight (log entry 33, DESIGN CHOICE), no CANCEL is queued, and
the ending completes at once (R98, R100, R119). -/
def Obligations.CallEndOthers : Prop :=
  ∀ s : State, s.Listens .station →
    let h := s.opened .station
    let ok (t : State) : Prop := exec (.callEnd .station) s = .next (t.answered .station (bare .ok)) ∧ h.settingsKept t
    let live (r : Radio) : Prop := (h.radio r).state ≠ .off ∧ (h.radio r).state ≠ .fault
    let stopped : CallRecord :=
      { h.call.unrouted with state := .ending, backoff := none, stagger := .stopped, ending := some 0 }
    let cancelled (x : Attempt) : Attempt := { x with disposition := some .cancel, setup := none, answer := none }
    let sameCancels (t : State) (r : Radio) : Prop :=
      ∀ n c, .cancel n c ∈ (t.radio r).queue ↔ .cancel n c ∈ (h.radio r).queue
    (∀ p o, h.call.state = .connected → h.call.part = some p → p.offer = some o → o.connected ≠ none →
      h.call.route = some o.radio → live o.radio → ∃ t, ok t
      ∧ t.call = { h.call.unrouted with state := .ending, ending := some 0 }
      ∧ .callback .stop ∈ (t.radio o.radio).queue ∧ (∀ r, h.radioKept t r) ∧ t.table = h.table ∧ t.journal = h.journal
      ∧ (t.port .station).pending.call = true ∧ (t.port .station).pending.route = true)
    ∧ (∀ p o, h.call.state = .callback → h.call.part = some p → p.offer = some o → o.ring = .answering → ∃ t, ok t
      ∧ t.call = { h.call with part := some p.offerGone }
      ∧ (live o.radio →
        (∀ k, p.held = some k → k.radio = o.radio → .callback (.hold k.network k.cell) ∈ (t.radio o.radio).queue)
        ∧ ((∀ k, p.held = some k → k.radio ≠ o.radio) → .callback .stop ∈ (t.radio o.radio).queue))
      ∧ (∀ r, h.radioKept t r) ∧ t.table = h.table ∧ t.journal = h.journal)
    ∧ (∀ a b, h.call.attempts = [a, b] ∨ h.call.attempts = [b, a] → b.radio = otherRadio a.radio → a.number ≠ b.number →
      h.call.part = none → (h.call.route = none → h.call.lineA = false ∧ h.call.lineB = false) →
      h.call.state = .placing ∨ h.call.state = .recovering ∨ h.call.state = .connected → live a.radio → live b.radio →
      (∀ c d e f g, .attempt a.number c d e f g ∉ (h.radio a.radio).queue) → a.disposition = none →
      ((∀ c d e f g, .attempt b.number c d e f g ∉ (h.radio b.radio).queue) → b.disposition ≠ some .cancel → ∃ t, ok t
        ∧ t.call = { stopped with attempts := h.call.attempts.map fun x => if x.disposition = none then cancelled x else x }
        ∧ .cancel a.number .callerEnd ∈ (t.radio a.radio).queue
        ∧ (b.disposition = none → .cancel b.number .callerEnd ∈ (t.radio b.radio).queue)
        ∧ (b.disposition = some .surplus → sameCancels t b.radio)
        ∧ (∀ r, h.radioKept t r) ∧ t.table = h.table ∧ t.journal = h.journal ∧ (t.port .station).pending.call = true)
      ∧ ((∃ c d e f g, .attempt b.number c d e f g ∈ (h.radio b.radio).queue) → b.disposition = none →
        b.connected = none → (h.radio b.radio).state = .attempting → h.journal.records.length < 32 → ∃ t x, ok t
        ∧ t.call = { stopped with attempts := [cancelled a] }
        ∧ .cancel a.number .callerEnd ∈ (t.radio a.radio).queue ∧ sameCancels t b.radio
        ∧ (∀ o ∈ (t.radio b.radio).queue, o.kind ≠ .attempt) ∧ h.Released t b.radio ∧ (t.radio b.radio).take = none
        ∧ h.radioKept t a.radio ∧ h.AttemptRecord b .withdrawn none b.ordered x ∧ h.Journals t [x] ∧ t.Unpinned b.slot
        ∧ (t.port .station).pending.call = true))
    ∧ ∀ a b, h.call.attempts = [a, b] → b.radio = otherRadio a.radio → a.number ≠ b.number → h.call.part = none →
      (h.call.route = none → h.call.lineA = false ∧ h.call.lineB = false) →
      h.call.state = .placing ∨ h.call.state = .recovering → h.journal.records.length < 30 →
      (∀ x ∈ h.call.attempts, x.disposition = none ∧ x.connected = none ∧ (h.radio x.radio).state = .attempting
        ∧ ∃ c d e f g, .attempt x.number c d e f g ∈ (h.radio x.radio).queue) → ∃ t x y z, ok t
      ∧ h.AttemptRecord a .withdrawn none a.ordered x ∧ h.AttemptRecord b .withdrawn none b.ordered y
      ∧ h.EndRecord .callerEnd z ∧ h.Journals t [x, y, z]
      ∧ (∀ r, h.Released t r ∧ (t.radio r).take = none ∧ sameCancels t r ∧ ∀ o ∈ (t.radio r).queue, o.kind ≠ .attempt)
      ∧ (∀ i e, t.entry i = some e → e.excludedFor = none) ∧ (t.port .station).pending.call = true
      ∧ (h.endsIdle [.A, .B] → t.Unpinned a.slot ∧ t.Unpinned b.slot ∧ t.call = { stopped with
          state := .idle, startTime := none, carrying := none, ending := none, attempts := [] })
      ∧ (∀ n, h.endsCallback [.A, .B] n → ∃ p, h.PartFormed t n p ∧ t.call = { stopped with
          state := .callback, carrying := none, ending := none, attempts := [], part := some p })

/-- Offers (R141, R142, R90, R66): INCOMING is answered NOT_ACCEPTED outside CALLBACK, BUSY with an offer present, and
NOT_ACCEPTED from a radio that is neither the held radio nor READY; otherwise the offer is recorded RINGING, RING is
posted, and a radio that was SURVEYING is READY.  ANSWER, and CALL START in its place, queue a CALLBACK ANSWER for a
RINGING offer, which becomes ANSWERING and stops the window; ANSWER is answered ANSWERED for an ANSWERING offer and on a
callback leg, and NONE where there is no offer, and then changes nothing.  What is said of CALLBACK without a callback
part, and of an offer without its leg in CONNECTED and ENDING, is the model's choice for combinations that no run
reaches (log entry 28). -/
def Obligations.IncomingAndAnswer : Prop :=
  (∀ (s : State) (r : Radio), s.Speaks r →
    let h := s.heardOn r
    (h.call.state ≠ .callback ∨ h.call.part = none →
      exec (.incoming (.radio r)) s = .next (h.answered (.radio r) (bare .notAccepted)))
    ∧ (∀ p, h.call.state = .callback → h.call.part = some p →
      (p.offer ≠ none → exec (.incoming (.radio r)) s = .next (h.answered (.radio r) (bare .busy)))
      ∧ (p.offer = none → (∀ k, p.held = some k → k.radio ≠ r) → (h.radio r).state ≠ .ready →
        exec (.incoming (.radio r)) s = .next (h.answered (.radio r) (bare .notAccepted)))
      ∧ (p.offer = none → (∃ k, p.held = some k ∧ k.radio = r) ∨ (h.radio r).state = .ready → ∃ t : State,
        exec (.incoming (.radio r)) s = .next (t.answered (.radio r) (bare .ok))
        ∧ t.call = { h.call with part := some { p with offer := some ⟨r, .ringing, none⟩ } }
        ∧ (t.port .station).pending.ring = true ∧ t.journal = h.journal ∧ h.settingsKept t
        ∧ h.radioKept t (otherRadio r)
        ∧ ((h.radio r).state = .surveying → (t.radio r).state = .ready ∧ ∀ u w x, t.surveyOf r ≠ .running u w x)
        ∧ ((h.radio r).state ≠ .surveying → h.radioKept t r ∧ t.table = h.table))))
  ∧ (∀ s : State, s.Listens .station →
    let h := s.opened .station
    (∀ p r x, h.call.state = .callback → h.call.part = some p → p.offer = some ⟨r, .ringing, x⟩ → ∃ t : State,
      exec (.answer .station) s = .next (t.answered .station (bare .ok))
      ∧ exec (.callStart .station) s = .next (t.answered .station (bare .ok))
      ∧ t.call = { h.call with part := some { p with counting := false, offer := some ⟨r, .answering, x⟩ } }
      ∧ ((h.radio r).state ≠ .off → (h.radio r).state ≠ .fault →
        (t.radio r).queue.getLast? = some (.callback .answer) ∧ .power .snooze ∉ (t.radio r).queue)
      ∧ (∀ q, h.radioKept t q) ∧ t.radio (otherRadio r) = h.radio (otherRadio r)
      ∧ { t with call := h.call, radios := h.radios, ports := h.ports } = h)
    ∧ (∀ p o, h.call.part = some p → p.offer = some o →
      (h.call.state = .callback ∧ o.ring = .answering)
        ∨ ((h.call.state = .connected ∨ h.call.state = .ending) ∧ o.connected ≠ none) →
      exec (.answer .station) s = .next (h.answered .station (bare .answered)))
    ∧ ((h.call.state ≠ .callback ∧ h.call.state ≠ .connected ∧ h.call.state ≠ .ending)
        ∨ h.call.part = none ∨ (∃ p, h.call.part = some p ∧ p.offer = none)
        ∨ (h.call.state ≠ .callback ∧ ∃ p o, h.call.part = some p ∧ p.offer = some o ∧ o.connected = none) →
      exec (.answer .station) s = .next (h.answered .station (bare .noneCode))))

/-! ### Attempts -/

/-- PROGRESS that is refused (R106, R107, R117, R131): RANGE for an undefined kind, or for FAILED or DROPPED with a
cause that a radio may not report; STALE when no attempt in flight, or no offer for number 0, is the radio's;
OUT_OF_ORDER when the kind does not move a wanted attempt forward, when ACCEPTED or ALERTING does not move a disposed one
forward, for DROPPED on a disposed attempt that is not connected and for FAILED on a leg under CANCEL; STALE and SURPLUS
for CONNECTED on an attempt that is cancelled or surplus.  Nothing changes but the hearing of the radio. -/
def Obligations.ProgressRefused : Prop :=
  ∀ (s : State) (r : Radio) (number kind cause : Nat), s.Speaks r →
    let h := s.heardOn r
    let answers (c : RespCode) : Prop :=
      exec (.progress (.radio r) number kind cause) s = .next (h.answered (.radio r) (bare c))
    let bad : Prop := 5 < kind ∨ ((kind = 3 ∨ kind = 4) ∧ 3 < cause)
    (bad → answers .range)
    ∧ (¬ bad → number = 0 → (∀ p o, h.call.part = some p → p.offer = some o → o.radio ≠ r) → answers .stale)
    ∧ (¬ bad → number ≠ 0 → (∀ a ∈ h.call.attempts, a.number ≠ number ∨ a.radio ≠ r) → answers .stale)
    ∧ (∀ a ∈ h.call.attempts, ¬ bad → number ≠ 0 → a.number = number → a.radio = r →
      (h.call.attempts.map (·.radio)).Nodup →
      (a.disposition = none →
        ¬ ((kind = 0 ∧ a.step = .taken) ∨ (kind = 1 ∧ (a.step = .taken ∨ a.step = .accepted))
          ∨ ((kind = 2 ∨ kind = 3) ∧ (a.step = .taken ∨ a.step = .accepted ∨ a.step = .alerting))
          ∨ (kind = 4 ∧ a.step = .connected)) → answers .outOfOrder)
      ∧ (a.disposition ≠ none → (kind = 0 ∧ a.step ≠ .taken) ∨ (kind = 1 ∧ a.step ≠ .taken ∧ a.step ≠ .accepted) →
        answers .outOfOrder)
      ∧ (a.disposition = some .cancel → kind = 2 → answers .stale)
      ∧ (a.disposition = some .cancel → (kind = 3 ∧ a.step = .connected) ∨ (kind = 4 ∧ a.step ≠ .connected) →
        answers .outOfOrder)
      ∧ (a.disposition = some .surplus → kind = 2 → answers .surplus)
      ∧ (a.disposition = some .surplus → kind = 4 → answers .outOfOrder))

/-- PROGRESS that moves an attempt forward, alone in flight or as either of two (R108, R115, R117, R124, R131, R136, R138):
ACCEPTED and ALERTING set its step, ALERTING starting the answer deadline and stopping the stagger, and change nothing
else; on an attempt under CANCEL or made surplus they set its step alone, no deadline starting and the stagger not being
told.  CONNECTED makes the call CONNECTED and the radio IN_CALL, clears the failure counts, sets the route and its line,
notes the connection, and raises the entry's credit by 2; a second attempt in flight is made surplus and is sent a CANCEL
(R129, R131). -/
def Obligations.ProgressMoves : Prop :=
  ∀ (s : State) (r : Radio) (cause : Nat) (a : Attempt), s.Speaks r →
    let h := s.heardOn r
    a.number ≠ 0 → a.radio = r →
    (∀ l : List Attempt, (l = [a] ∨ ∃ b, bothInFlight a b l ∧ b.number ≠ a.number) → h.call.attempts = l →
      let becomes (kind : Nat) (x : Attempt) (g : Stagger) : Prop :=
        exec (.progress (.radio r) a.number kind cause) s = .next (({ h with call := { h.call with
          attempts := l.map fun y => if y.number = a.number then x else y, stagger := g } } : State).answered (.radio r)
          (bare .ok))
      (a.step = .taken → becomes 0 { a with step := .accepted } h.call.stagger)
      ∧ (a.disposition = none → a.step = .taken ∨ a.step = .accepted →
        becomes 1 { a with step := .alerting, setup := none, answer := some 0 } .stopped)
      ∧ (a.disposition ≠ none → a.step = .taken ∨ a.step = .accepted →
        becomes 1 { a with step := .alerting } h.call.stagger))
    ∧ (∀ l : List Attempt, a.disposition = none →
      (l = [a] ∨ ∃ b, bothInFlight a b l ∧ b.radio ≠ r ∧ b.number ≠ a.number ∧ b.disposition = none
        ∧ b.step ≠ .ordered) →
      h.call.attempts = l →
      a.step = .taken ∨ a.step = .accepted ∨ a.step = .alerting →
      h.call.state = .placing ∨ h.call.state = .recovering → (h.radio r).state = .attempting → h.call.route = none →
      h.call.part = none → ∃ t : State,
      exec (.progress (.radio r) a.number 2 cause) s = .next (t.answered (.radio r) (bare .ok))
      ∧ t.call = { h.call with
          state := .connected
          attempts := l.map fun x =>
            if x.number = a.number then
              { x with step := .connected, connected := some h.journal.clock, setup := none, answer := none }
            else { x with disposition := some .surplus, setup := none, answer := none }
          carrying := some (r, a.slot), note := some ⟨r, a.slot, a.network, a.generation, a.cell⟩
          failures := 0, radioFailures := h.call.radioFailures.set r 0, everConnected := true, stagger := .stopped
          route := some r, lineA := decide (r = .A), lineB := decide (r = .B) }
      ∧ t.radio r = { h.radio r with state := .inCall, start := none, queue := (t.radio r).queue }
      ∧ h.radioKept t (otherRadio r)
      ∧ (∀ b ∈ l, b.number ≠ a.number → (h.radio b.radio).state ≠ .off → (h.radio b.radio).state ≠ .fault →
        .cancel b.number .surplus ∈ (t.radio b.radio).queue)
      ∧ (t.port .station).pending.call = true ∧ (t.port .station).pending.route = true
      ∧ (∀ j, j ≠ a.slot → t.entry j = h.entry j) ∧ (h.entry a.slot = none → t.entry a.slot = none)
      ∧ (∀ e, h.entry a.slot = some e → ∀ x : Entry, x = { e with credit := min 15 (e.credit + 2) } →
        t.entry a.slot = some (match e.state with
          | .ranked _ => { x with score := scoreOf h.profile.biases x }
          | .held _ | .lost => x))
      ∧ t.journal = h.journal ∧ h.settingsKept t)

/-- The losers of a race beside a first connection (R129 to R134).  A loser still in ORDERED is WITHDRAWN: its ATTEMPT
order and the take deadline are gone, no CANCEL is queued, no credit, count or exclusion changes, its radio is READY.  A
surplus loser that its radio clears, by FAILED or CLEARED, ends SURPLUS with its radio READY and its entry unpinned, and
the connected call goes on.  When the last wanted attempt fails with a base above 0, or the leg drops and no entry can
be a candidate, each surplus loser in flight is given up with the record SURPLUS and its radio READY, before the call is
in BACKOFF, or SEEKING; its CANCEL stays queued.  After the drop both radios are READY, and the SEEKING call walks again
(R95, R134): it orders an attempt on an entry of the loser's radio, the loser's own target among them, with the call
PLACING, when one is a candidate by then.  That this walk sees both radios released is log entry 13, the model's
reading. -/
def Obligations.RaceLosers : Prop :=
  ∀ (s : State) (r : Radio) (kind cause : Nat) (a b : Attempt), s.Speaks r →
    let h := s.heardOn r
    let early (x : Attempt) : Prop := x.step = .taken ∨ x.step = .accepted ∨ x.step = .alerting
    let answered (n : Nat) (t : State) : Prop :=
      exec (.progress (.radio r) n kind cause) s = .next (t.answered (.radio r) (bare .ok)) ∧ h.settingsKept t
    bothInFlight a b h.call.attempts → a.radio = r → b.radio = otherRadio r → a.number ≠ b.number → a.number ≠ 0 →
    b.number ≠ 0 → h.call.part = none → h.journal.records.length < 31 → a.slot ≠ b.slot →
    (kind = 2 → a.disposition = none → early a → (h.radio r).state = .attempting →
      b.disposition = none → b.step = .ordered → b.connected = none → (h.radio b.radio).state = .attempting →
      (∃ c d e f g, .attempt b.number c d e f g ∈ (h.radio b.radio).queue) →
      h.call.state = .placing ∨ h.call.state = .recovering → h.call.route = none → ∃ t x, answered a.number t
      ∧ t.call = { h.call with
          state := .connected
          attempts := [{ a with step := .connected, connected := some h.journal.clock, setup := none, answer := none }]
          carrying := some (r, a.slot), note := some ⟨r, a.slot, a.network, a.generation, a.cell⟩
          failures := 0, radioFailures := h.call.radioFailures.set r 0, everConnected := true, stagger := .stopped
          route := some r, lineA := decide (r = .A), lineB := decide (r = .B) }
      ∧ h.AttemptRecord b .withdrawn none b.ordered x ∧ h.Journals t [x]
      ∧ h.Released t b.radio ∧ (t.radio b.radio).take = none ∧ (∀ o ∈ (t.radio b.radio).queue, o.kind ≠ .attempt)
      ∧ (∀ n c, .cancel n c ∈ (t.radio b.radio).queue ↔ .cancel n c ∈ (h.radio b.radio).queue)
      ∧ t.Unpinned b.slot
      ∧ ∀ e f, h.entry b.slot = some e → t.entry b.slot = some f → f.credit = e.credit ∧ f.excludedFor = e.excludedFor)
    ∧ (a.disposition = some .surplus → early a → a.connected = none → (h.radio r).state = .attempting →
      kind = 5 ∨ (kind = 3 ∧ cause ≤ 3) → h.call.state = .connected → b.disposition = none →
      ∃ t x, answered a.number t ∧ t.call = { h.call with attempts := [b] }
      ∧ h.AttemptRecord a .surplus none a.ordered x ∧ h.Journals t [x]
      ∧ h.Released t r ∧ h.radioKept t (otherRadio r) ∧ (t.port .station).pending.radio = true ∧ t.Unpinned a.slot
      ∧ ∀ j e, j ≠ a.slot → h.entry j = some e → e.radio ≠ r ∨ (∀ g, e.state ≠ .held g) → t.entry j = some e)
    ∧ (b.disposition = some .surplus → early b → b.connected = none → (h.radio b.radio).state = .attempting →
      (∀ o ∈ (h.radio r).queue ++ (h.radio b.radio).queue, o.kind ≠ .attempt) →
      .cancel b.number .surplus ∈ (h.radio b.radio).queue → a.disposition = none → ∀ c,
      (cause = 0 ∧ c = .noService) ∨ (cause = 1 ∧ c = .rejected) ∨ (cause = 2 ∧ c = .networkBusy)
        ∨ (cause = 3 ∧ c = .radioFault) →
      let givenUp (t : State) (o : RecordOutcome) (m : Time) : Prop := h.settingsKept t
        ∧ (∃ x y, h.AttemptRecord a o none m x ∧ h.AttemptRecord b .surplus none b.ordered y ∧ h.Journals t [x, y])
        ∧ h.Released t r ∧ h.Released t b.radio ∧ t.Unpinned a.slot ∧ t.Unpinned b.slot
        ∧ .cancel b.number .surplus ∈ (t.radio b.radio).queue ∧ (t.port .station).pending.call = true
      (kind = 3 → early a → a.connected = none → (h.radio r).state = .attempting →
        h.call.state = .placing ∨ h.call.state = .recovering → 0 < h.profile.backoff →
        h.call.failures ≤ 255 → (∀ q, h.call.radioFailures.get q ≤ 255) →
        ∃ t, answered a.number t ∧ givenUp t (.failed c) a.ordered
        ∧ t.call = { h.call.blamed r with state := .backoff, attempts := [], backoff := some 0, stagger := .stopped })
      ∧ (∀ m, kind = 4 → a.step = .connected → a.connected = some m → (h.radio r).state = .inCall →
        h.call.state = .connected → h.call.route = some r → h.call.stagger = .stopped → h.call.recoveries ≤ 255 →
        0 < h.profile.exclusion →
        (∀ j e, j ≠ a.slot → h.entry j = some e → e.radio = r → e.excludedFor ≠ none ∨ e.state = .lost) →
        ∃ t u, answered a.number t ∧ givenUp u (.dropped c) m ∧ u.survey.urgent = true
        ∧ u.call = { h.call.unrouted with
            state := .seeking, attempts := [], carrying := none, recoveries := min 255 (h.call.recoveries + 1) }
        ∧ (∀ j e, h.entry j = some e → e.radio = b.radio → j ≠ b.slot → (∀ g, e.state ≠ .held g) → u.entry j = some e)
        ∧ (∀ e g, h.entry b.slot = some e → e.radio = b.radio → e.state = .ranked g → e.age < h.profile.fade * 1000 →
          e.age < h.profile.lost * 1000 → u.entry b.slot = some { e with pin := false })
        ∧ (∀ j e, u.Candidate j e → e.radio = b.radio)
        ∧ ((∀ j e, ¬ u.Candidate j e) → t = u)
        ∧ ∀ j e, u.FirstOf (eligibleOf u.Candidate) j e → u.Placed t j e h.call.nextAttempt
          ∧ t.call = { u.call with
            state := .placing, attempts := [u.orderedAttempt j e h.call.nextAttempt]
            nextAttempt := afterAttempt h.call.nextAttempt, stagger := u.staggerAfter }))

/-- The one attempt in flight fails (R68, R96, R109 to R114, R120): by the take deadline, by the setup or the answer
deadline with a CANCEL RECOVERY, by a FAILED report, or by its radio's silence.  In each the counts rise, the record is
written, and the call waits in BACKOFF where the profile's base is above 0.  In all but the last the radio is released
to READY, and its entry, where fresh enough, loses credit by the cause, is unpinned and excluded; a silent radio is
SILENT.  A deadline that does not run does nothing (log entry 3). -/
def Obligations.AttemptFails : Prop :=
  let ready (h : State) (a : Attempt) : Prop :=
    h.call.attempts = [a] ∧ a.disposition = none ∧ a.connected = none ∧ a.number ≠ 0
    ∧ (h.call.state = .placing ∨ h.call.state = .recovering) ∧ (h.radio a.radio).state = .attempting
    ∧ 0 < h.profile.backoff ∧ h.journal.records.length < 32 ∧ h.call.failures ≤ 255
    ∧ (∀ r, h.call.radioFailures.get r ≤ 255) ∧ h.call.part = none
  let failed (h t : State) (a : Attempt) (c : Cause) : Prop :=
    t.call = { h.call with
      state := .backoff, attempts := [], failures := min 255 (h.call.failures + 1)
      radioFailures := h.call.radioFailures.set a.radio (min 255 (h.call.radioFailures.get a.radio + 1))
      lastFailed := some a.radio, backoff := some 0, stagger := .stopped }
    ∧ (∃ d, h.lasted a.ordered d ∧ t.journal = { h.journal with records := h.journal.records ++
        [⟨.attempt, h.call.number, some a.number, some a.radio, some a.network, some a.generation, some a.cell,
          some (.failed c), none, d, h.journal.clock.sec, 0⟩] })
    ∧ h.radioKept t (otherRadio a.radio)
    ∧ (t.port .station).pending.call = true ∧ (t.port .station).pending.radio = true ∧ h.settingsKept t
  let released (h t : State) (a : Attempt) (loss : Nat) : Prop :=
    t.radio a.radio = { h.radio a.radio with
      state := .ready, start := none, take := (t.radio a.radio).take, queue := (t.radio a.radio).queue }
    ∧ (∀ j e, j ≠ a.slot → h.entry j = some e → e.radio ≠ a.radio ∨ (∀ g, e.state ≠ .held g) → t.entry j = some e)
    ∧ (∀ e g, h.entry a.slot = some e → e.pin = true → e.state = .ranked g → e.age < h.profile.fade * 1000 →
        e.age < h.profile.lost * 1000 → e.credit ≤ 15 →
        ∀ x : Entry, x = { e with
          credit := e.credit - loss, pin := false
          excludedFor := if h.profile.exclusion = 0 then none else some (h.profile.exclusion * 1000) } →
        t.entry a.slot = some { x with score := if loss = 0 then e.score else scoreOf h.profile.biases x })
  (∀ (s : State) (r : Radio), s.resetAsserted = false →
    ((s.radio r).take = none → exec (.takeDeadlineExpiry r) s = .next s.followLines)
    ∧ (∀ a, ready s a → a.radio = r → (s.radio r).take ≠ none →
      (∃ o ∈ (s.radio r).queue, o.kind = .attempt) →
      (∀ o ∈ (s.radio r).queue, o.kind = .attempt → ∃ b c d e f, o = .attempt a.number b c d e f) → ∃ t : State,
      exec (.takeDeadlineExpiry r) s = .next t.followLines ∧ failed s t a .takeTimeout ∧ released s t a 0
      ∧ (t.radio r).take = none ∧ (∀ o ∈ (t.radio r).queue, o.kind ≠ .attempt)))
  ∧ (∀ (s : State) (n : Nat), s.resetAsserted = false →
    ((∀ a ∈ s.call.attempts, a.number = n → a.setup = none) → exec (.setupDeadlineExpiry n) s = .next s.followLines)
    ∧ ((∀ a ∈ s.call.attempts, a.number = n → a.answer = none) → exec (.answerDeadlineExpiry n) s = .next s.followLines)
    ∧ (∀ a, ready s a → a.number = n → a.setup ≠ none → ∃ t : State,
      exec (.setupDeadlineExpiry n) s = .next t.followLines ∧ failed s t a .setupTimeout ∧ released s t a 2
      ∧ .cancel n .recovery ∈ (t.radio a.radio).queue)
    ∧ (∀ a, ready s a → a.number = n → a.answer ≠ none → ∃ t : State,
      exec (.answerDeadlineExpiry n) s = .next t.followLines ∧ failed s t a .answerTimeout ∧ released s t a 2
      ∧ .cancel n .recovery ∈ (t.radio a.radio).queue))
  ∧ (∀ (s : State) (r : Radio) (a : Attempt) (cause : Nat) (c : Cause), s.Speaks r →
    ready (s.heardOn r) a → a.radio = r → a.step = .taken ∨ a.step = .accepted ∨ a.step = .alerting →
    (cause = 0 ∧ c = .noService) ∨ (cause = 1 ∧ c = .rejected) ∨ (cause = 2 ∧ c = .networkBusy)
      ∨ (cause = 3 ∧ c = .radioFault) → ∃ t : State,
    exec (.progress (.radio r) a.number 3 cause) s = .next (t.answered (.radio r) (bare .ok))
    ∧ failed (s.heardOn r) t a c ∧ released (s.heardOn r) t a (if c = .radioFault then 0 else 4))
  ∧ (∀ (s : State) (r : Radio) (a : Attempt), s.resetAsserted = false → ready s a → a.radio = r → a.step ≠ .connected →
    (s.radio r).silence ≠ none → ∃ t : State,
    exec (.silenceTimerExpiry r) s = .next t.followLines ∧ failed s t a .radioSilent ∧ (t.radio r).state = .silent)

/-- The end of a connected leg and of a cancelled attempt.  DROPPED on the connected leg (R116, R135): its entry loses
credit by the cause, is unpinned and excluded, the record is written with the time from the connection, the route is
NONE, the recoveries rise, and the call is RECOVERING with a new attempt ordered on another entry, or SEEKING with none,
as it is when no other entry can be a candidate.  The clearing of an attempt or a leg under CANCEL (R117, R118, R120):
no credit and no count changes, the entry is unpinned, the radio is READY, the record is written, and the ending
completes (R98, R100): in IDLE when the call was never connected, the profile's window is 0 or the radio of the noted
connection is not READY or SURVEYING, and otherwise in CALLBACK with its part formed (R139). -/
def Obligations.LegDropsAndClears : Prop :=
  ∀ (s : State) (r : Radio) (kind cause : Nat) (a : Attempt), s.Speaks r →
    let h := s.heardOn r
    let fresh (e : Entry) : Prop :=
      e.pin = true ∧ (∃ g, e.state = .ranked g) ∧ e.age < h.profile.fade * 1000 ∧ e.age < h.profile.lost * 1000
    h.call.attempts = [a] → a.number ≠ 0 → a.radio = r → h.call.part = none → h.journal.records.length < 31 →
    (∀ b c, a.disposition = none → a.step = .connected → a.connected = some b → kind = 4 →
      (cause = 0 ∧ c = .noService) ∨ (cause = 1 ∧ c = .rejected) ∨ (cause = 2 ∧ c = .networkBusy)
        ∨ (cause = 3 ∧ c = .radioFault) →
      h.call.state = .connected → (h.radio r).state = .inCall → h.call.route = some r → h.call.recoveries ≤ 255 →
      h.call.stagger = .stopped → 0 < h.profile.exclusion → ∃ t : State,
      exec (.progress (.radio r) a.number kind cause) s = .next (t.answered (.radio r) (bare .ok))
      ∧ (∃ x, h.AttemptRecord a (.dropped c) none b x ∧ h.Journals t [x])
      ∧ t.call.route = none ∧ t.call.lineA = false ∧ t.call.lineB = false ∧ t.call.carrying = none
      ∧ t.call.recoveries = min 255 (h.call.recoveries + 1) ∧ t.call.failures = h.call.failures
      ∧ t.call.radioFailures = h.call.radioFailures ∧ t.call.note = h.call.note
      ∧ ((t.call.state = .seeking ∧ t.call.attempts = [])
        ∨ (t.call.state = .recovering ∧ ∃ y, t.call.attempts = [y] ∧ y.step = .ordered ∧ y.slot ≠ a.slot))
      ∧ (t.port .station).pending.call = true ∧ (t.port .station).pending.route = true
      ∧ (t.port .station).pending.radio = true ∧ h.settingsKept t
      ∧ (∀ e, h.entry a.slot = some e → fresh e → e.credit ≤ 15 →
        ∀ x : Entry, x = { e with
          credit := e.credit - (if c = .radioFault then 0 else 3), pin := false
          excludedFor := some (h.profile.exclusion * 1000) } →
        t.entry a.slot = some { x with score := if c = .radioFault then e.score else scoreOf h.profile.biases x })
      ∧ ((∀ j e, j ≠ a.slot → h.entry j = some e → e.excludedFor ≠ none ∨ e.state = .lost
          ∨ (e.radio ≠ r ∧ ((∀ g, e.state ≠ .ranked g) ∨ ¬ h.Open e.radio))) →
        t.call = { h.call.unrouted with
          state := .seeking, attempts := [], carrying := none, recoveries := min 255 (h.call.recoveries + 1) }
        ∧ t.survey.urgent = true
        ∧ t.radio r = { h.radio r with state := .ready, start := none, queue := (t.radio r).queue }
        ∧ h.radioKept t (otherRadio r)))
    ∧ (∀ o b, a.disposition = some .cancel → h.call.state = .ending →
      (a.step ≠ .connected ∧ a.connected = none ∧ (h.radio r).state = .attempting ∧ o = .cleared ∧ b = a.ordered
          ∧ (kind = 5 ∨ (kind = 3 ∧ cause ≤ 3)))
        ∨ (a.step = .connected ∧ a.connected = some b ∧ (h.radio r).state = .inCall ∧ o = .connectedEnded
          ∧ (kind = 5 ∨ (kind = 4 ∧ cause ≤ 3))) → ∃ t : State,
      exec (.progress (.radio r) a.number kind cause) s = .next (t.answered (.radio r) (bare .ok))
      ∧ t.radio r = { h.radio r with state := .ready, start := none, queue := (t.radio r).queue }
      ∧ h.radioKept t (otherRadio r) ∧ h.settingsKept t
      ∧ (t.port .station).pending.call = true ∧ (t.port .station).pending.radio = true
      ∧ (∀ i e, t.entry i = some e → e.excludedFor = none)
      ∧ (∃ x y, h.AttemptRecord a o none b x ∧ h.EndRecord .callerEnd y ∧ h.Journals t [x, y])
      ∧ (h.endsIdle [r] →
        t.call = { h.call with state := .idle, attempts := [], startTime := none, carrying := none, ending := none }
        ∧ t.Unpinned a.slot
        ∧ (∀ e, h.entry a.slot = some e → fresh e → t.entry a.slot = some { e with pin := false, excludedFor := none }))
      ∧ (∀ n, h.endsCallback [r] n → ∃ p, h.PartFormed t n p
        ∧ t.call = { h.call with state := .callback, attempts := [], carrying := none, ending := none, part := some p }))

/-- Back-off and stagger (R92, R93, R94, R97, R123, R125): the end of the back-off, with no attempt in flight, orders an
attempt on the walk's choice with the call PLACING, or leaves the call SEEKING with the urgent request begun.  The end
of the stagger timer, beside a lone attempt that is not yet ALERTING, orders a second attempt on the choice of the walk
restricted to the other radio, and the stagger stops, or leaves the stagger OPEN when there is none.  The next attempt
number advances past the number of an attempt in flight (R94).  A timer that does not run does nothing (log entry 3). -/
def Obligations.BackoffAndStagger : Prop :=
  ∀ s : State, s.resetAsserted = false →
    (s.call.backoff = none → exec .backoffExpiry s = .next s.followLines)
    ∧ (s.call.backoff ≠ none → s.call.state = .backoff → s.call.attempts = [] → s.call.part = none →
      ((∀ i e, ¬ s.Candidate i e) → ∃ t : State, exec .backoffExpiry s = .next t.followLines
        ∧ t.call = { s.call with state := .seeking, backoff := none } ∧ t.survey.urgent = true
        ∧ (t.port .station).pending.call = true ∧ t.table = s.table ∧ t.journal = s.journal ∧ (∀ r, s.radioKept t r)
        ∧ s.settingsKept t)
      ∧ (∀ i e, s.Chooses i e → ∃ t : State, exec .backoffExpiry s = .next t.followLines
        ∧ t.call = { s.call with
            state := .placing, backoff := none, attempts := [s.orderedAttempt i e s.call.nextAttempt]
            nextAttempt := afterAttempt s.call.nextAttempt, stagger := s.staggerAfter }
        ∧ s.Placed t i e s.call.nextAttempt ∧ (t.port .station).pending.call = true))
    ∧ ((∀ n, s.call.stagger ≠ .counting n) → exec .staggerTimerExpiry s = .next s.followLines)
    ∧ (∀ n a, s.call.stagger = .counting n → s.call.attempts = [a] → a.disposition = none →
      a.step = .ordered ∨ a.step = .taken ∨ a.step = .accepted →
      ((∀ i e, s.Candidate i e → e.radio ≠ otherRadio a.radio) →
        exec .staggerTimerExpiry s
          = .next ({ s with call := { s.call with stagger := .opened } } : State).followLines)
      ∧ (∀ i e, s.ChoosesOn (otherRadio a.radio) i e → s.call.state = .placing ∨ s.call.state = .recovering →
        s.call.part = none → a.number ≠ s.call.nextAttempt → ∃ t : State,
        exec .staggerTimerExpiry s = .next t.followLines
        ∧ t.call = { s.call with
            attempts := [a, s.orderedAttempt i e s.call.nextAttempt]
            nextAttempt := afterAttemptBeside a s.call.nextAttempt, stagger := .stopped }
        ∧ s.Placed t i e s.call.nextAttempt))

/-- Selection at the events of the table and the radios (R95, R126, R127).  The failure of one of two wanted attempts
leaves the other: the counts rise, the call stays as it was, and the stagger counts from 0 where it is in effect and the
other is not yet ALERTING, and is STOPPED otherwise.  The end of an exclusion, and the entry of a radio into READY, run
what `Walks` says: in SEEKING an attempt on the walk's choice, beside an OPEN stagger a second attempt on the choice of
the restricted walk.  That the walk sees the whole change made, every HELD entry of the radio returned, and that at an
entry into READY the call controller acts before the scheduler, is the model's reading (log entries 13 and 14, DEDUCED);
the entry that is chosen could rest on it.  CellReportTaken says the same of an entry that a CELL REPORT brings into the
ranked list. -/
def Obligations.StaggerWalks : Prop :=
  (∀ (s : State) (i n : Nat) (e : Entry), s.resetAsserted = false → s.entry i = some e → e.excludedFor = some n →
    ∃ t : State, exec (.exclusionExpiry i) s = .next t.followLines
      ∧ (s.mapSlot i fun x => some { x with excludedFor := none }).Walks t e.radio)
  ∧ (∀ (s : State) (r : Radio), s.Speaks r →
    let h := s.heardOn r
    (h.radio r).state = .starting →
    ∃ t : State, exec (.moduleStatus (.radio r) 1 0) s = .next (t.answered (.radio r) (bare .ok))
      ∧ ((h.setRadioState r .ready).returnEntries r).Walks t r)
  ∧ ∀ (s : State) (r : Radio) (cause : Nat) (c : Cause) (a b : Attempt), s.Speaks r →
    let h := s.heardOn r
    bothInFlight a b h.call.attempts → a.radio = r → b.radio = otherRadio r → a.number ≠ b.number → a.number ≠ 0 →
    a.disposition = none → b.disposition = none → a.step = .taken ∨ a.step = .accepted ∨ a.step = .alerting →
    a.connected = none → h.call.state = .placing ∨ h.call.state = .recovering → h.call.part = none →
    (h.radio r).state = .attempting → (h.radio b.radio).state = .attempting →
    (∀ o ∈ (h.radio r).queue, o.kind ≠ .attempt) → h.journal.records.length < 32 →
    h.call.failures ≤ 255 → (∀ q, h.call.radioFailures.get q ≤ 255) →
    (cause = 0 ∧ c = .noService) ∨ (cause = 1 ∧ c = .rejected) ∨ (cause = 2 ∧ c = .networkBusy)
      ∨ (cause = 3 ∧ c = .radioFault) → ∃ (t : State) (x : JournalRecord),
    exec (.progress (.radio r) a.number 3 cause) s = .next (t.answered (.radio r) (bare .ok))
    ∧ h.AttemptRecord a (.failed c) none a.ordered x ∧ h.Journals t [x] ∧ h.Released t r ∧ h.radioKept t b.radio
    ∧ h.settingsKept t ∧ t.Unpinned a.slot
    ∧ ∃ g : Stagger, t.call = { h.call.blamed r with attempts := [b], stagger := g }
      ∧ (h.profile.staggered = true → h.supply.condition = .normal → b.Early → g = .counting 0)
      ∧ (h.profile.staggered = false ∨ h.supply.condition ≠ .normal ∨ b.step = .alerting → g = .stopped)

/-- The ending timer and the callback window (R98, R99, R100, R140, R144): the expiry of the ending timer clears what is
still in flight, none, one or two attempts or a connected leg under CANCEL, in their order, each with a CLEARED record,
its time running from the connection for a leg, its radio READY, and a CANCEL in its radio's queue, the one that waits
there or a new one; it ends the call with the reason ENDING_TIMEOUT: in IDLE when it was never connected, the window is 0
or the radio of the noted connection is not READY or SURVEYING by then, and otherwise in CALLBACK with its part formed
(R139).  A callback leg is cleared in the same way, with a CALLBACK END in its radio's queue unless the HOLD to the same
radio replaces it.  The expiry of the counting window sends a CALLBACK END to the held radio, unpins its entry and leaves
the call IDLE without a part.  A timer that does not run does nothing (log entry 3). -/
def Obligations.CallTimers : Prop :=
  ∀ s : State, s.resetAsserted = false →
    (s.call.ending = none → exec .endingTimerExpiry s = .next s.followLines)
    ∧ (∀ l : List Attempt, s.call.ending ≠ none → s.call.state = .ending → s.call.part = none →
      s.call.attempts = l → l.length ≤ 2 → (l.map (·.number)).Nodup → (l.map (·.radio)).Nodup →
      s.journal.records.length < 30 →
      (∀ a ∈ l, (a.connected = none ∧ (s.radio a.radio).state = .attempting)
        ∨ (a.connected ≠ none ∧ (s.radio a.radio).state = .inCall)) →
      ∃ (t : State) (x : List JournalRecord) (y : JournalRecord), exec .endingTimerExpiry s = .next t.followLines
      ∧ (t.port .station).pending.call = true ∧ s.settingsKept t
      ∧ List.Forall₂ (fun a z => s.AttemptRecord a .cleared (some .endingTimeout) (a.connected.getD a.ordered) z) l x
      ∧ s.EndRecord .endingTimeout y ∧ s.Journals t (x ++ [y])
      ∧ (∀ i e, t.entry i = some e → e.excludedFor = none)
      ∧ (s.endsIdle (l.map (·.radio)) →
        t.call = { s.call with state := .idle, startTime := none, carrying := none, ending := none, attempts := [] }
        ∧ (l = [] → ∀ i, t.entry i = (s.entry i).map fun e => { e with excludedFor := none })
        ∧ (∀ a ∈ l, t.Unpinned a.slot))
      ∧ (∀ n, s.endsCallback (l.map (·.radio)) n → ∃ p, s.PartFormed t n p
        ∧ t.call = { s.call with state := .callback, carrying := none, ending := none, attempts := [], part := some p })
      ∧ (∀ r, (∀ a ∈ l, a.radio ≠ r) → s.radioKept t r)
      ∧ ∀ a ∈ l, s.Released t a.radio
        ∧ (∀ c, .cancel a.number c ∈ (s.radio a.radio).queue → .cancel a.number c ∈ (t.radio a.radio).queue)
        ∧ ((∀ c, .cancel a.number c ∉ (s.radio a.radio).queue) → .cancel a.number .endingTimeout ∈ (t.radio a.radio).queue))
    ∧ (∀ p o b, s.call.ending ≠ none → s.call.state = .ending → s.call.attempts = [] → s.call.part = some p →
      p.offer = some o → o.connected = some b → (s.radio o.radio).state = .inCall → s.call.route = none →
      s.call.lineA = false → s.call.lineB = false → s.journal.records.length < 31 → ∃ t : State,
      exec .endingTimerExpiry s = .next t.followLines
      ∧ s.LegOver t p o .cleared (some .endingTimeout) .endingTimeout b
      ∧ ((∀ k, p.held = some k → k.radio ≠ o.radio) → .callback .stop ∈ (t.radio o.radio).queue))
    ∧ ((s.call.state ≠ .callback ∨ ∀ p, s.call.part = some p → p.counting = false) →
      exec .callbackWindowExpiry s = .next s.followLines)
    ∧ (∀ p, s.call.state = .callback → s.call.part = some p → p.counting = true → ∃ t : State,
      exec .callbackWindowExpiry s = .next t.followLines
      ∧ t.call = { s.call with state := .idle, startTime := none, part := none }
      ∧ (t.port .station).pending.call = true
      ∧ (∀ k, p.held = some k → (s.radio k.radio).state ≠ .off → (s.radio k.radio).state ≠ .fault →
        .callback .stop ∈ (t.radio k.radio).queue)
      ∧ (∀ o, p.offer = some o → (s.radio o.radio).state ≠ .off → (s.radio o.radio).state ≠ .fault →
        (∀ k, p.held = some k → k.radio ≠ o.radio) → .callback .stop ∈ (t.radio o.radio).queue)
      ∧ (∀ k i, p.held = some k → k.slot = some i →
        (∀ e, t.entry i = some e → e.pin = false) ∧ ∀ j, j ≠ i → t.entry j = s.entry j)
      ∧ (∀ r, s.radioKept t r) ∧ t.journal = s.journal ∧ s.settingsKept t)

/-- PROGRESS with the number 0 (R143, R144): FAILED and CLEARED remove an offer, and the window restarts at 0; CONNECTED
on an ANSWERING offer connects the leg, with the radio IN_CALL and the route set; on a leg that is up DROPPED ends the
leg and the call, and in ENDING CLEARED does too: the CALLBACK_LEG record and the CALL_END record are written, the radio
is READY, every exclusion ends, and with a held radio the call is in CALLBACK again with the window at 0 and a HOLD
queued; with the held radio lost it is IDLE without a callback part (R146).  Every other kind is OUT_OF_ORDER, but STALE
for CONNECTED in ENDING, and changes nothing. -/
def Obligations.CallbackLeg : Prop :=
  ∀ (s : State) (r : Radio) (kind cause : Nat) (p : CallbackPart) (o : Offer), s.Speaks r →
    let h := s.heardOn r
    let answers (c : RespCode) : Prop :=
      exec (.progress (.radio r) 0 kind cause) s = .next (h.answered (.radio r) (bare c))
    let finished (out : RecordOutcome) : Prop := ∀ b, o.connected = some b → h.call.attempts = [] →
      (h.radio r).state = .inCall → h.journal.records.length < 31 →
      (h.call.state = .connected → h.call.route = some r) →
      (h.call.state = .ending → h.call.route = none ∧ h.call.lineA = false ∧ h.call.lineB = false) → ∃ t : State,
      exec (.progress (.radio r) 0 kind cause) s = .next (t.answered (.radio r) (bare .ok))
      ∧ h.LegOver t p o out none .callerEnd b
      ∧ (h.call.state = .connected → (t.port .station).pending.route = true)
    h.call.part = some p → p.offer = some o → o.radio = r → kind ≤ 5 → (kind = 3 ∨ kind = 4 → cause ≤ 3) →
    (h.call.state = .callback →
      (kind = 0 ∨ kind = 1 ∨ kind = 4 ∨ (kind = 2 ∧ o.ring = .ringing) → answers .outOfOrder)
      ∧ (kind = 3 ∨ kind = 5 → ∃ t : State,
        exec (.progress (.radio r) 0 kind cause) s = .next (t.answered (.radio r) (bare .ok))
        ∧ t.call = { h.call with part := some { p with offer := none, timer := 0, counting := true } }
        ∧ (∀ q, h.radioKept t q) ∧ t.table = h.table ∧ t.journal = h.journal ∧ h.settingsKept t)
      ∧ (kind = 2 → o.ring = .answering → h.call.route = none →
        (h.radio r).state = .ready ∨ (h.radio r).state = .surveying → ∃ t : State,
        exec (.progress (.radio r) 0 kind cause) s = .next (t.answered (.radio r) (bare .ok))
        ∧ t.call = { h.call with
            state := .connected, part := some { p with offer := some { o with connected := some h.journal.clock } }
            route := some r, lineA := decide (r = .A), lineB := decide (r = .B) }
        ∧ t.radio r = { h.radio r with state := .inCall, start := none, queue := (t.radio r).queue }
        ∧ h.radioKept t (otherRadio r) ∧ t.journal = h.journal ∧ h.settingsKept t
        ∧ (t.port .station).pending.call = true ∧ (t.port .station).pending.route = true
        ∧ ((h.radio r).state = .surveying → ∀ u w x, t.surveyOf r ≠ .running u w x)
        ∧ ((h.radio r).state = .ready → t.table = h.table)))
    ∧ (h.call.state = .connected → o.connected ≠ none →
      (kind ≠ 4 → answers .outOfOrder)
      ∧ (∀ c, kind = 4 →
        (cause = 0 ∧ c = .noService) ∨ (cause = 1 ∧ c = .rejected) ∨ (cause = 2 ∧ c = .networkBusy)
          ∨ (cause = 3 ∧ c = .radioFault) → finished (.dropped c)))
    ∧ (h.call.state = .ending → o.connected ≠ none →
      (kind = 0 ∨ kind = 1 ∨ kind = 3 → answers .outOfOrder) ∧ (kind = 2 → answers .stale)
      ∧ (kind = 4 ∨ kind = 5 → finished .connectedEnded))
end

