-- ==== Sys2Proof/Laws/State.lean ====
section
/-! SUPPORT. What each named update of the state leaves: one lemma for each field that the update does not touch, and one
for what it does to the part it changes. -/

namespace Sys2Proof.Machine

variable (s : State)

/-! ### `State.mapRadio` -/

@[simp] theorem State.mapRadio_table (r : Radio) (f : RadioContext → RadioContext) : (s.mapRadio r f).table = s.table := rfl
@[simp] theorem State.mapRadio_prefs (r : Radio) (f : RadioContext → RadioContext) : (s.mapRadio r f).prefs = s.prefs := rfl
@[simp] theorem State.mapRadio_survey (r : Radio) (f : RadioContext → RadioContext) : (s.mapRadio r f).survey = s.survey := rfl
@[simp] theorem State.mapRadio_call (r : Radio) (f : RadioContext → RadioContext) : (s.mapRadio r f).call = s.call := rfl
@[simp] theorem State.mapRadio_journal (r : Radio) (f : RadioContext → RadioContext) : (s.mapRadio r f).journal = s.journal := rfl
@[simp] theorem State.mapRadio_supply (r : Radio) (f : RadioContext → RadioContext) : (s.mapRadio r f).supply = s.supply := rfl
@[simp] theorem State.mapRadio_profile (r : Radio) (f : RadioContext → RadioContext) : (s.mapRadio r f).profile = s.profile := rfl
@[simp] theorem State.mapRadio_ports (r : Radio) (f : RadioContext → RadioContext) : (s.mapRadio r f).ports = s.ports := rfl
@[simp] theorem State.mapRadio_linkCheck (r : Radio) (f : RadioContext → RadioContext) : (s.mapRadio r f).linkCheck = s.linkCheck := rfl
@[simp] theorem State.mapRadio_resetAsserted (r : Radio) (f : RadioContext → RadioContext) : (s.mapRadio r f).resetAsserted = s.resetAsserted := rfl
@[simp] theorem State.mapRadio_pending (r : Radio) (f : RadioContext → RadioContext) : (s.mapRadio r f).pending = s.pending := rfl

/-! ### `State.mapCall` -/

@[simp] theorem State.mapCall_table (f : CallRecord → CallRecord) : (s.mapCall f).table = s.table := rfl
@[simp] theorem State.mapCall_prefs (f : CallRecord → CallRecord) : (s.mapCall f).prefs = s.prefs := rfl
@[simp] theorem State.mapCall_radios (f : CallRecord → CallRecord) : (s.mapCall f).radios = s.radios := rfl
@[simp] theorem State.mapCall_survey (f : CallRecord → CallRecord) : (s.mapCall f).survey = s.survey := rfl
@[simp] theorem State.mapCall_journal (f : CallRecord → CallRecord) : (s.mapCall f).journal = s.journal := rfl
@[simp] theorem State.mapCall_supply (f : CallRecord → CallRecord) : (s.mapCall f).supply = s.supply := rfl
@[simp] theorem State.mapCall_profile (f : CallRecord → CallRecord) : (s.mapCall f).profile = s.profile := rfl
@[simp] theorem State.mapCall_ports (f : CallRecord → CallRecord) : (s.mapCall f).ports = s.ports := rfl
@[simp] theorem State.mapCall_linkCheck (f : CallRecord → CallRecord) : (s.mapCall f).linkCheck = s.linkCheck := rfl
@[simp] theorem State.mapCall_resetAsserted (f : CallRecord → CallRecord) : (s.mapCall f).resetAsserted = s.resetAsserted := rfl
@[simp] theorem State.mapCall_pending (f : CallRecord → CallRecord) : (s.mapCall f).pending = s.pending := rfl

/-! ### `State.mapSurvey` -/

@[simp] theorem State.mapSurvey_table (f : Scheduler → Scheduler) : (s.mapSurvey f).table = s.table := rfl
@[simp] theorem State.mapSurvey_prefs (f : Scheduler → Scheduler) : (s.mapSurvey f).prefs = s.prefs := rfl
@[simp] theorem State.mapSurvey_radios (f : Scheduler → Scheduler) : (s.mapSurvey f).radios = s.radios := rfl
@[simp] theorem State.mapSurvey_call (f : Scheduler → Scheduler) : (s.mapSurvey f).call = s.call := rfl
@[simp] theorem State.mapSurvey_journal (f : Scheduler → Scheduler) : (s.mapSurvey f).journal = s.journal := rfl
@[simp] theorem State.mapSurvey_supply (f : Scheduler → Scheduler) : (s.mapSurvey f).supply = s.supply := rfl
@[simp] theorem State.mapSurvey_profile (f : Scheduler → Scheduler) : (s.mapSurvey f).profile = s.profile := rfl
@[simp] theorem State.mapSurvey_ports (f : Scheduler → Scheduler) : (s.mapSurvey f).ports = s.ports := rfl
@[simp] theorem State.mapSurvey_linkCheck (f : Scheduler → Scheduler) : (s.mapSurvey f).linkCheck = s.linkCheck := rfl
@[simp] theorem State.mapSurvey_resetAsserted (f : Scheduler → Scheduler) : (s.mapSurvey f).resetAsserted = s.resetAsserted := rfl
@[simp] theorem State.mapSurvey_pending (f : Scheduler → Scheduler) : (s.mapSurvey f).pending = s.pending := rfl

/-! ### `State.setSilentHold` -/

@[simp] theorem State.setSilentHold_prefs (r : Radio) (v : Option Nat) : (s.setSilentHold r v).prefs = s.prefs := rfl
@[simp] theorem State.setSilentHold_radios (r : Radio) (v : Option Nat) : (s.setSilentHold r v).radios = s.radios := rfl
@[simp] theorem State.setSilentHold_survey (r : Radio) (v : Option Nat) : (s.setSilentHold r v).survey = s.survey := rfl
@[simp] theorem State.setSilentHold_call (r : Radio) (v : Option Nat) : (s.setSilentHold r v).call = s.call := rfl
@[simp] theorem State.setSilentHold_journal (r : Radio) (v : Option Nat) : (s.setSilentHold r v).journal = s.journal := rfl
@[simp] theorem State.setSilentHold_supply (r : Radio) (v : Option Nat) : (s.setSilentHold r v).supply = s.supply := rfl
@[simp] theorem State.setSilentHold_profile (r : Radio) (v : Option Nat) : (s.setSilentHold r v).profile = s.profile := rfl
@[simp] theorem State.setSilentHold_ports (r : Radio) (v : Option Nat) : (s.setSilentHold r v).ports = s.ports := rfl
@[simp] theorem State.setSilentHold_linkCheck (r : Radio) (v : Option Nat) : (s.setSilentHold r v).linkCheck = s.linkCheck := rfl
@[simp] theorem State.setSilentHold_resetAsserted (r : Radio) (v : Option Nat) : (s.setSilentHold r v).resetAsserted = s.resetAsserted := rfl
@[simp] theorem State.setSilentHold_pending (r : Radio) (v : Option Nat) : (s.setSilentHold r v).pending = s.pending := rfl

/-! ### `State.setLine` -/

@[simp] theorem State.setLine_table (l : Line) (x : SupplyLine) : (s.setLine l x).table = s.table := rfl
@[simp] theorem State.setLine_prefs (l : Line) (x : SupplyLine) : (s.setLine l x).prefs = s.prefs := rfl
@[simp] theorem State.setLine_radios (l : Line) (x : SupplyLine) : (s.setLine l x).radios = s.radios := rfl
@[simp] theorem State.setLine_survey (l : Line) (x : SupplyLine) : (s.setLine l x).survey = s.survey := rfl
@[simp] theorem State.setLine_call (l : Line) (x : SupplyLine) : (s.setLine l x).call = s.call := rfl
@[simp] theorem State.setLine_journal (l : Line) (x : SupplyLine) : (s.setLine l x).journal = s.journal := rfl
@[simp] theorem State.setLine_profile (l : Line) (x : SupplyLine) : (s.setLine l x).profile = s.profile := rfl
@[simp] theorem State.setLine_ports (l : Line) (x : SupplyLine) : (s.setLine l x).ports = s.ports := rfl
@[simp] theorem State.setLine_linkCheck (l : Line) (x : SupplyLine) : (s.setLine l x).linkCheck = s.linkCheck := rfl
@[simp] theorem State.setLine_resetAsserted (l : Line) (x : SupplyLine) : (s.setLine l x).resetAsserted = s.resetAsserted := rfl
@[simp] theorem State.setLine_pending (l : Line) (x : SupplyLine) : (s.setLine l x).pending = s.pending := rfl

/-! ### `State.setLinkCheck` -/

@[simp] theorem State.setLinkCheck_table (r : Radio) (v : Option Nat) : (s.setLinkCheck r v).table = s.table := rfl
@[simp] theorem State.setLinkCheck_prefs (r : Radio) (v : Option Nat) : (s.setLinkCheck r v).prefs = s.prefs := rfl
@[simp] theorem State.setLinkCheck_radios (r : Radio) (v : Option Nat) : (s.setLinkCheck r v).radios = s.radios := rfl
@[simp] theorem State.setLinkCheck_survey (r : Radio) (v : Option Nat) : (s.setLinkCheck r v).survey = s.survey := rfl
@[simp] theorem State.setLinkCheck_call (r : Radio) (v : Option Nat) : (s.setLinkCheck r v).call = s.call := rfl
@[simp] theorem State.setLinkCheck_journal (r : Radio) (v : Option Nat) : (s.setLinkCheck r v).journal = s.journal := rfl
@[simp] theorem State.setLinkCheck_supply (r : Radio) (v : Option Nat) : (s.setLinkCheck r v).supply = s.supply := rfl
@[simp] theorem State.setLinkCheck_profile (r : Radio) (v : Option Nat) : (s.setLinkCheck r v).profile = s.profile := rfl
@[simp] theorem State.setLinkCheck_ports (r : Radio) (v : Option Nat) : (s.setLinkCheck r v).ports = s.ports := rfl
@[simp] theorem State.setLinkCheck_resetAsserted (r : Radio) (v : Option Nat) : (s.setLinkCheck r v).resetAsserted = s.resetAsserted := rfl
@[simp] theorem State.setLinkCheck_pending (r : Radio) (v : Option Nat) : (s.setLinkCheck r v).pending = s.pending := rfl

/-! ### `State.mapPort` -/

@[simp] theorem State.mapPort_table (p : Port) (f : PortState → PortState) : (s.mapPort p f).table = s.table := by
  rcases p with _ | (_ | _) <;> rfl
@[simp] theorem State.mapPort_prefs (p : Port) (f : PortState → PortState) : (s.mapPort p f).prefs = s.prefs := by
  rcases p with _ | (_ | _) <;> rfl
@[simp] theorem State.mapPort_radios (p : Port) (f : PortState → PortState) : (s.mapPort p f).radios = s.radios := by
  rcases p with _ | (_ | _) <;> rfl
@[simp] theorem State.mapPort_survey (p : Port) (f : PortState → PortState) : (s.mapPort p f).survey = s.survey := by
  rcases p with _ | (_ | _) <;> rfl
@[simp] theorem State.mapPort_call (p : Port) (f : PortState → PortState) : (s.mapPort p f).call = s.call := by
  rcases p with _ | (_ | _) <;> rfl
@[simp] theorem State.mapPort_journal (p : Port) (f : PortState → PortState) : (s.mapPort p f).journal = s.journal := by
  rcases p with _ | (_ | _) <;> rfl
@[simp] theorem State.mapPort_supply (p : Port) (f : PortState → PortState) : (s.mapPort p f).supply = s.supply := by
  rcases p with _ | (_ | _) <;> rfl
@[simp] theorem State.mapPort_profile (p : Port) (f : PortState → PortState) : (s.mapPort p f).profile = s.profile := by
  rcases p with _ | (_ | _) <;> rfl
@[simp] theorem State.mapPort_linkCheck (p : Port) (f : PortState → PortState) : (s.mapPort p f).linkCheck = s.linkCheck := by
  rcases p with _ | (_ | _) <;> rfl
@[simp] theorem State.mapPort_resetAsserted (p : Port) (f : PortState → PortState) : (s.mapPort p f).resetAsserted = s.resetAsserted := by
  rcases p with _ | (_ | _) <;> rfl
@[simp] theorem State.mapPort_pending (p : Port) (f : PortState → PortState) : (s.mapPort p f).pending = s.pending := by
  rcases p with _ | (_ | _) <;> rfl

/-! ### `State.setNotice` -/

@[simp] theorem State.setNotice_table (p : Port) (k : NoticeKind) (v : Bool) : (s.setNotice p k v).table = s.table := State.mapPort_table _ _ _
@[simp] theorem State.setNotice_prefs (p : Port) (k : NoticeKind) (v : Bool) : (s.setNotice p k v).prefs = s.prefs := State.mapPort_prefs _ _ _
@[simp] theorem State.setNotice_radios (p : Port) (k : NoticeKind) (v : Bool) : (s.setNotice p k v).radios = s.radios := State.mapPort_radios _ _ _
@[simp] theorem State.setNotice_survey (p : Port) (k : NoticeKind) (v : Bool) : (s.setNotice p k v).survey = s.survey := State.mapPort_survey _ _ _
@[simp] theorem State.setNotice_call (p : Port) (k : NoticeKind) (v : Bool) : (s.setNotice p k v).call = s.call := State.mapPort_call _ _ _
@[simp] theorem State.setNotice_journal (p : Port) (k : NoticeKind) (v : Bool) : (s.setNotice p k v).journal = s.journal := State.mapPort_journal _ _ _
@[simp] theorem State.setNotice_supply (p : Port) (k : NoticeKind) (v : Bool) : (s.setNotice p k v).supply = s.supply := State.mapPort_supply _ _ _
@[simp] theorem State.setNotice_profile (p : Port) (k : NoticeKind) (v : Bool) : (s.setNotice p k v).profile = s.profile := State.mapPort_profile _ _ _
@[simp] theorem State.setNotice_linkCheck (p : Port) (k : NoticeKind) (v : Bool) : (s.setNotice p k v).linkCheck = s.linkCheck := State.mapPort_linkCheck _ _ _
@[simp] theorem State.setNotice_resetAsserted (p : Port) (k : NoticeKind) (v : Bool) : (s.setNotice p k v).resetAsserted = s.resetAsserted := State.mapPort_resetAsserted _ _ _
@[simp] theorem State.setNotice_pending (p : Port) (k : NoticeKind) (v : Bool) : (s.setNotice p k v).pending = s.pending := State.mapPort_pending _ _ _

/-! ### `State.post` -/

@[simp] theorem State.post_table (k : NoticeKind) : (s.post k).table = s.table := State.setNotice_table _ _ _ _
@[simp] theorem State.post_prefs (k : NoticeKind) : (s.post k).prefs = s.prefs := State.setNotice_prefs _ _ _ _
@[simp] theorem State.post_radios (k : NoticeKind) : (s.post k).radios = s.radios := State.setNotice_radios _ _ _ _
@[simp] theorem State.post_survey (k : NoticeKind) : (s.post k).survey = s.survey := State.setNotice_survey _ _ _ _
@[simp] theorem State.post_call (k : NoticeKind) : (s.post k).call = s.call := State.setNotice_call _ _ _ _
@[simp] theorem State.post_journal (k : NoticeKind) : (s.post k).journal = s.journal := State.setNotice_journal _ _ _ _
@[simp] theorem State.post_supply (k : NoticeKind) : (s.post k).supply = s.supply := State.setNotice_supply _ _ _ _
@[simp] theorem State.post_profile (k : NoticeKind) : (s.post k).profile = s.profile := State.setNotice_profile _ _ _ _
@[simp] theorem State.post_linkCheck (k : NoticeKind) : (s.post k).linkCheck = s.linkCheck := State.setNotice_linkCheck _ _ _ _
@[simp] theorem State.post_resetAsserted (k : NoticeKind) : (s.post k).resetAsserted = s.resetAsserted := State.setNotice_resetAsserted _ _ _ _
@[simp] theorem State.post_pending (k : NoticeKind) : (s.post k).pending = s.pending := State.setNotice_pending _ _ _ _

/-! ### `State.respond` -/

@[simp] theorem State.respond_table (p : Port) (x : Response) : (s.respond p x).table = s.table := State.mapPort_table _ _ _
@[simp] theorem State.respond_prefs (p : Port) (x : Response) : (s.respond p x).prefs = s.prefs := State.mapPort_prefs _ _ _
@[simp] theorem State.respond_radios (p : Port) (x : Response) : (s.respond p x).radios = s.radios := State.mapPort_radios _ _ _
@[simp] theorem State.respond_survey (p : Port) (x : Response) : (s.respond p x).survey = s.survey := State.mapPort_survey _ _ _
@[simp] theorem State.respond_call (p : Port) (x : Response) : (s.respond p x).call = s.call := State.mapPort_call _ _ _
@[simp] theorem State.respond_journal (p : Port) (x : Response) : (s.respond p x).journal = s.journal := State.mapPort_journal _ _ _
@[simp] theorem State.respond_supply (p : Port) (x : Response) : (s.respond p x).supply = s.supply := State.mapPort_supply _ _ _
@[simp] theorem State.respond_profile (p : Port) (x : Response) : (s.respond p x).profile = s.profile := State.mapPort_profile _ _ _
@[simp] theorem State.respond_linkCheck (p : Port) (x : Response) : (s.respond p x).linkCheck = s.linkCheck := State.mapPort_linkCheck _ _ _
@[simp] theorem State.respond_resetAsserted (p : Port) (x : Response) : (s.respond p x).resetAsserted = s.resetAsserted := State.mapPort_resetAsserted _ _ _
@[simp] theorem State.respond_pending (p : Port) (x : Response) : (s.respond p x).pending = s.pending := State.mapPort_pending _ _ _

/-! ### `State.setQueue` -/

@[simp] theorem State.setQueue_table (r : Radio) (q : List Order) : (s.setQueue r q).table = s.table := State.setNotice_table _ _ _ _
@[simp] theorem State.setQueue_prefs (r : Radio) (q : List Order) : (s.setQueue r q).prefs = s.prefs := State.setNotice_prefs _ _ _ _
@[simp] theorem State.setQueue_survey (r : Radio) (q : List Order) : (s.setQueue r q).survey = s.survey := State.setNotice_survey _ _ _ _
@[simp] theorem State.setQueue_call (r : Radio) (q : List Order) : (s.setQueue r q).call = s.call := State.setNotice_call _ _ _ _
@[simp] theorem State.setQueue_journal (r : Radio) (q : List Order) : (s.setQueue r q).journal = s.journal := State.setNotice_journal _ _ _ _
@[simp] theorem State.setQueue_supply (r : Radio) (q : List Order) : (s.setQueue r q).supply = s.supply := State.setNotice_supply _ _ _ _
@[simp] theorem State.setQueue_profile (r : Radio) (q : List Order) : (s.setQueue r q).profile = s.profile := State.setNotice_profile _ _ _ _
@[simp] theorem State.setQueue_linkCheck (r : Radio) (q : List Order) : (s.setQueue r q).linkCheck = s.linkCheck := State.setNotice_linkCheck _ _ _ _
@[simp] theorem State.setQueue_resetAsserted (r : Radio) (q : List Order) : (s.setQueue r q).resetAsserted = s.resetAsserted := State.setNotice_resetAsserted _ _ _ _
@[simp] theorem State.setQueue_pending (r : Radio) (q : List Order) : (s.setQueue r q).pending = s.pending := State.setNotice_pending _ _ _ _

/-! ### One radio's context -/

/-- Reading a pair at the radio just written. -/
@[simp] theorem PerRadio.get_set_self {α : Type} (x : PerRadio α) (r : Radio) (v : α) : (x.set r v).get r = v := by
  cases r <;> rfl

/-- Reading a pair at the other radio. -/
theorem PerRadio.get_set {α : Type} (x : PerRadio α) (r q : Radio) (v : α) :
    (x.set r v).get q = if q = r then v else x.get q := by
  cases r <;> cases q <;> rfl

/-- A pair is its two values. -/
theorem PerRadio.set_get {α : Type} (x : PerRadio α) (r : Radio) : x.set r (x.get r) = x := by cases r <;> rfl

/-- The context of a radio after a change of a radio's context. -/
theorem State.radio_mapRadio (r q : Radio) (f : RadioContext → RadioContext) :
    (s.mapRadio r f).radio q = if q = r then f (s.radio q) else s.radio q := by
  cases r <;> cases q <;> rfl

/-- The context of the changed radio. -/
@[simp] theorem State.radio_mapRadio_self (r : Radio) (f : RadioContext → RadioContext) :
    (s.mapRadio r f).radio r = f (s.radio r) := by cases r <;> rfl

/-- Contexts are unchanged where the radios are. -/
theorem State.radio_of_radios {s t : State} (h : t.radios = s.radios) (r : Radio) : t.radio r = s.radio r := by
  simp only [State.radio, h]

/-- The context of a radio after its queue, or another radio's, is replaced (R65). -/
theorem State.radio_setQueue (r q : Radio) (l : List Order) :
    (s.setQueue r l).radio q = if q = r then { s.radio q with queue := l } else s.radio q := by
  cases r <;> cases q <;> rfl

/-- Contexts after a change of a port, a notice, a response or a record. -/
@[simp] theorem State.radio_mapPort (p : Port) (f : PortState → PortState) (r : Radio) :
    (s.mapPort p f).radio r = s.radio r := by rcases p with _ | (_ | _) <;> rfl
@[simp] theorem State.radio_setNotice (p : Port) (k : NoticeKind) (v : Bool) (r : Radio) :
    (s.setNotice p k v).radio r = s.radio r := State.radio_mapPort _ _ _ _
@[simp] theorem State.radio_post (k : NoticeKind) (r : Radio) : (s.post k).radio r = s.radio r := rfl
@[simp] theorem State.radio_writeRecord (x : JournalRecord) (r : Radio) : (s.writeRecord x).radio r = s.radio r := rfl

/-! ### `State.writeRecord` -/

@[simp] theorem State.writeRecord_table (x : JournalRecord) : (s.writeRecord x).table = s.table := rfl
@[simp] theorem State.writeRecord_prefs (x : JournalRecord) : (s.writeRecord x).prefs = s.prefs := rfl
@[simp] theorem State.writeRecord_radios (x : JournalRecord) : (s.writeRecord x).radios = s.radios := rfl
@[simp] theorem State.writeRecord_survey (x : JournalRecord) : (s.writeRecord x).survey = s.survey := rfl
@[simp] theorem State.writeRecord_call (x : JournalRecord) : (s.writeRecord x).call = s.call := rfl
@[simp] theorem State.writeRecord_supply (x : JournalRecord) : (s.writeRecord x).supply = s.supply := rfl
@[simp] theorem State.writeRecord_profile (x : JournalRecord) : (s.writeRecord x).profile = s.profile := rfl
@[simp] theorem State.writeRecord_linkCheck (x : JournalRecord) : (s.writeRecord x).linkCheck = s.linkCheck := rfl
@[simp] theorem State.writeRecord_resetAsserted (x : JournalRecord) : (s.writeRecord x).resetAsserted = s.resetAsserted := rfl
@[simp] theorem State.writeRecord_pending (x : JournalRecord) : (s.writeRecord x).pending = s.pending := rfl
@[simp] theorem State.port_writeRecord_radio (x : JournalRecord) (r : Radio) :
    (s.writeRecord x).port (.radio r) = s.port (.radio r) := by cases r <;> rfl
/-! ### The call record and the scheduler -/

@[simp] theorem State.mapCall_call (f : CallRecord → CallRecord) : (s.mapCall f).call = f s.call := rfl
@[simp] theorem State.mapSurvey_survey (f : Scheduler → Scheduler) : (s.mapSurvey f).survey = f s.survey := rfl
@[simp] theorem State.radio_mapCall (f : CallRecord → CallRecord) (r : Radio) : (s.mapCall f).radio r = s.radio r := rfl
@[simp] theorem State.radio_mapSurvey (f : Scheduler → Scheduler) (r : Radio) : (s.mapSurvey f).radio r = s.radio r := rfl

/-! ### Ports -/

/-- The state of a port after a change of a port. -/
theorem State.port_mapPort (p q : Port) (f : PortState → PortState) :
    (s.mapPort p f).port q = if q = p then f (s.port q) else s.port q := by
  rcases p with _ | (_ | _) <;> rcases q with _ | (_ | _) <;> rfl

/-- The state of the changed port. -/
@[simp] theorem State.port_mapPort_self (p : Port) (f : PortState → PortState) :
    (s.mapPort p f).port p = f (s.port p) := by
  rcases p with _ | (_ | _) <;> rfl

/-- A port after a notice is set on a port. -/
theorem State.port_setNotice (p q : Port) (k : NoticeKind) (v : Bool) :
    (s.setNotice p k v).port q = if q = p then { s.port q with pending := (s.port q).pending.put k v } else s.port q := by
  rcases p with _ | (_ | _) <;> rcases q with _ | (_ | _) <;> rfl

/-- A port after an event kind is posted to the station. -/
theorem State.port_post (q : Port) (k : NoticeKind) :
    (s.post k).port q =
      if q = .station then { s.port q with pending := (s.port q).pending.put k true } else s.port q := by
  rcases q with _ | (_ | _) <;> rfl

/-- A port after a queue is replaced: ORDER follows on the radio's own port (R65). -/
theorem State.port_setQueue (r : Radio) (l : List Order) (q : Port) :
    (s.setQueue r l).port q =
      if q = .radio r then { s.port q with pending := (s.port q).pending.put .order !l.isEmpty } else s.port q := by
  cases r <;> rcases q with _ | (_ | _) <;> rfl

/-- A kind is in a set after it, or another kind, is put in or out. -/
theorem NoticeSet.has_put (n : NoticeSet) (k j : NoticeKind) (v : Bool) :
    (n.put k v).has j = if j = k then v else n.has j := by
  cases k <;> cases j <;> rfl

/-- A change of nothing. -/
@[simp] theorem State.mapPort_id (p : Port) : s.mapPort p id = s := by rcases p with _ | (_ | _) <;> rfl

/-- Two changes of one port are one. -/
theorem State.mapPort_mapPort (p : Port) (f g : PortState → PortState) :
    (s.mapPort p f).mapPort p g = s.mapPort p (g ∘ f) := by
  rcases p with _ | (_ | _) <;> rfl

end Sys2Proof.Machine
end

