-- ==== Sys2Proof/Laws/Inner.lean ====
section
/-! SUPPORT. `Inner s t`: what the blocks may do to each other within one handling, as a chain of single updates of their
own state.  Each operation of the blocks has one lemma that it is such a chain; what every chain keeps is proved here
once. -/

namespace Sys2Proof.Machine

/-- `t` comes from `s` by updates that the blocks make within a handling. -/
inductive Inner : State → State → Prop where
  | refl (s : State) : Inner s s
  | trans {s t u : State} : Inner s t → Inner t u → Inner s u
  /-- A kind of the event sort is posted, or returned. -/
  | notice (s : State) (p : Port) (k : NoticeKind) (v : Bool) (h : k.isCondition = false) : Inner s (s.setNotice p k v)
  /-- An order queue is replaced. -/
  | queue (s : State) (r : Radio) (q : List Order) (h : kindsDistinct (s.radio r).queue → kindsDistinct q) :
    Inner s (s.setQueue r q)
  /-- A context is changed, but for its queue. -/
  | context (s : State) (r : Radio) (f : RadioContext → RadioContext) (hq : (f (s.radio r)).queue = (s.radio r).queue)
    (ht : (s.radio r).TimersSound → (f (s.radio r)).TimersSound) : Inner s (s.mapRadio r f)
  /-- The scheduler is changed. -/
  | survey (s : State) (f : Scheduler → Scheduler) : Inner s (s.mapSurvey f)
  /-- The call record is changed, but for its attempts, its route and its lines. -/
  | call (s : State) (f : CallRecord → CallRecord)
    (h : ∀ c, (f c).attempts = c.attempts ∧ (f c).nextAttempt = c.nextAttempt ∧ (f c).route = c.route
      ∧ (f c).lineA = c.lineA ∧ (f c).lineB = c.lineB) : Inner s (s.mapCall f)
  /-- The attempts in flight are changed. -/
  | attempts (s : State) (l : List Attempt) (n : Nat) (h : s.AttemptsSound → AttemptsSound l n) :
    Inner s (s.mapCall fun c => { c with attempts := l, nextAttempt := n })
  /-- The route is changed, and the lines with it. -/
  | route (s : State) (v : Option Radio) :
    Inner s (s.mapCall fun c => { c with route := v, lineA := v == some .A, lineB := v == some .B })
  /-- The slots are changed. -/
  | slots (s : State) (t : Slots) (h : SlotsSound s.prefs s.table.slots → SlotsSound s.prefs t) :
    Inner s { s with table := { s.table with slots := t } }
  /-- The table's own timers are changed. -/
  | timers (s : State) (h : PerRadio (Option Nat)) (n : Nat) :
    Inner s { s with table := { s.table with silentHold := h, relax := n } }
  /-- A record is written. -/
  | record (s : State) (x : JournalRecord) : Inner s (s.writeRecord x)

/-- The JOURNAL condition's test as the setting of a notice (R153). -/
@[simp] theorem testJournal_eq (s : State) :
    s.testJournal = s.setNotice .station .journal (decide (s.journal.mark ≤ s.journal.records.length)) := rfl

namespace Inner

variable {s t : State}

/-! ### What no chain touches -/

/-- The fields of the state that the blocks do not touch within a handling. -/
structure Same (s t : State) : Prop where
  prefs : t.prefs = s.prefs
  supply : t.supply = s.supply
  profile : t.profile = s.profile
  linkCheck : t.linkCheck = s.linkCheck
  resetAsserted : t.resetAsserted = s.resetAsserted
  pending : t.pending = s.pending
  mark : t.journal.mark = s.journal.mark
  clock : t.journal.clock = s.journal.clock
  port : ∀ p, { t.port p with pending := (s.port p).pending } = s.port p

theorem Same.rfl' (s : State) : Same s s := ⟨rfl, rfl, rfl, rfl, rfl, rfl, rfl, rfl, fun _ => rfl⟩

theorem Same.trans {s t u : State} (h : Same s t) (k : Same t u) : Same s u where
  prefs := k.prefs.trans h.prefs
  supply := k.supply.trans h.supply
  profile := k.profile.trans h.profile
  linkCheck := k.linkCheck.trans h.linkCheck
  resetAsserted := k.resetAsserted.trans h.resetAsserted
  pending := k.pending.trans h.pending
  mark := k.mark.trans h.mark
  clock := k.clock.trans h.clock
  port := fun p => by
    have a := h.port p
    have b := k.port p
    rw [← a]
    conv => rhs; rw [← b]

/-- A notice set on a port changes its pending set alone. -/
theorem Same.notice (s : State) (p : Port) (k : NoticeKind) (v : Bool) : Same s (s.setNotice p k v) where
  prefs := by simp
  supply := by simp
  profile := by simp
  linkCheck := by simp
  resetAsserted := by simp
  pending := by simp
  mark := by simp
  clock := by simp
  port := fun q => by rw [State.port_setNotice]; split <;> rfl

/-- A record written changes the journal's list and the JOURNAL condition alone. -/
theorem Same.record (s : State) (x : JournalRecord) : Same s (s.writeRecord x) where
  prefs := by simp [State.writeRecord]
  supply := by simp [State.writeRecord]
  profile := by simp [State.writeRecord]
  linkCheck := by simp [State.writeRecord]
  resetAsserted := by simp [State.writeRecord]
  pending := by simp [State.writeRecord]
  mark := by simp [State.writeRecord]
  clock := by simp [State.writeRecord]
  port := fun q => by
    simp only [State.writeRecord, testJournal_eq]
    rw [State.port_setNotice]
    split <;> rfl

/-- What no chain of updates touches. -/
theorem same (h : Inner s t) : Same s t := by
  induction h with
  | refl s => exact Same.rfl' s
  | trans _ _ h k => exact h.trans k
  | notice s p k v _ => exact Same.notice s p k v
  | queue s r q _ =>
    exact (Same.trans (t := s.mapRadio r fun c => { c with queue := q }) ⟨rfl, rfl, rfl, rfl, rfl, rfl, rfl, rfl,
      fun _ => rfl⟩ (Same.notice _ _ _ _))
  | context s r f _ _ => exact ⟨rfl, rfl, rfl, rfl, rfl, rfl, rfl, rfl, fun _ => rfl⟩
  | survey s f => exact ⟨rfl, rfl, rfl, rfl, rfl, rfl, rfl, rfl, fun _ => rfl⟩
  | call s f _ => exact ⟨rfl, rfl, rfl, rfl, rfl, rfl, rfl, rfl, fun _ => rfl⟩
  | attempts s l n _ => exact ⟨rfl, rfl, rfl, rfl, rfl, rfl, rfl, rfl, fun _ => rfl⟩
  | route s v => exact ⟨rfl, rfl, rfl, rfl, rfl, rfl, rfl, rfl, fun _ => rfl⟩
  | slots s t _ => exact ⟨rfl, rfl, rfl, rfl, rfl, rfl, rfl, rfl, fun _ => rfl⟩
  | timers s h n => exact ⟨rfl, rfl, rfl, rfl, rfl, rfl, rfl, rfl, fun _ => rfl⟩
  | record s x => exact (Same.rfl' s).trans (Same.record s x)

/-! ### What every chain keeps -/

/-- The slots stay sound for the list. -/
theorem slotsSound (h : Inner s t) : SlotsSound s.prefs s.table.slots → SlotsSound t.prefs t.table.slots := by
  induction h with
  | refl s => exact id
  | trans _ _ h k => exact k ∘ h
  | notice s p k v _ => simp
  | queue s r q _ => simp
  | slots s t h => exact h
  | record s x => simp [State.writeRecord]
  | context => exact id
  | survey => exact id
  | call => exact id
  | attempts => exact id
  | route => exact id
  | timers => exact id

/-- Radio timers stay sound. -/
theorem timersSound (h : Inner s t) : s.TimersSound → t.TimersSound := by
  induction h with
  | refl s => exact id
  | trans _ _ h k => exact k ∘ h
  | notice s p k v _ => exact fun h r => by rw [State.radio_setNotice]; exact h r
  | queue s r q _ =>
    intro h r'
    rw [State.radio_setQueue]
    split
    · exact h r'
    · exact h r'
  | context s r f _ ht =>
    intro h r'
    rw [State.radio_mapRadio]
    split
    · next e => subst e; exact ht (h r')
    · exact h r'
  | record s x => exact id
  | slots => exact id
  | survey => exact id
  | call => exact id
  | attempts => exact id
  | route => exact id
  | timers => exact id

/-- A kind that is not ORDER leaves ORDER as it is. -/
theorem order_put (n : NoticeSet) (k : NoticeKind) (v : Bool) (h : k ≠ .order) : (n.put k v).order = n.order := by
  cases k <;> first | rfl | exact absurd rfl h

/-- A kind that is not JOURNAL leaves JOURNAL as it is. -/
theorem journal_put (n : NoticeSet) (k : NoticeKind) (v : Bool) (h : k ≠ .journal) :
    (n.put k v).journal = n.journal := by
  cases k <;> first | rfl | exact absurd rfl h

/-- Queues and the ORDER condition stay sound. -/
theorem queuesSound (h : Inner s t) : s.QueuesSound → t.QueuesSound := by
  induction h with
  | refl s => exact id
  | trans _ _ h k => exact k ∘ h
  | notice s p k v hk =>
    intro h r
    rw [State.radio_setNotice, State.port_setNotice]
    have ho : k ≠ .order := by rintro rfl; simp [NoticeKind.isCondition] at hk
    split
    · exact ⟨(h r).1, by simpa [order_put _ _ _ ho] using (h r).2⟩
    · exact h r
  | queue s r q hq =>
    intro h r'
    rw [State.radio_setQueue, State.port_setQueue]
    by_cases e : r' = r
    · subst e
      simp only [if_true]
      exact ⟨hq (h r').1, rfl⟩
    · have e' : Port.radio r' ≠ Port.radio r := by simpa using e
      simp only [if_neg e, if_neg e']
      exact h r'
  | context s r f hf _ =>
    intro h r'
    rw [State.radio_mapRadio]
    have := h r'
    split
    · next e => subst e; rw [hf]; exact this
    · exact this
  | record s x =>
    intro h r
    have := h r
    simpa using this
  | slots => exact id
  | survey => exact id
  | call => exact id
  | attempts => exact id
  | route => exact id
  | timers => exact id

/-- The attempts in flight stay sound. -/
theorem attemptsSound (h : Inner s t) : s.AttemptsSound → t.AttemptsSound := by
  induction h with
  | refl s => exact id
  | trans _ _ h k => exact k ∘ h
  | notice s p k v _ => simp [State.AttemptsSound]
  | queue s r q _ => simp [State.AttemptsSound]
  | call s f h =>
    intro hs
    obtain ⟨ha, hn, -⟩ := h s.call
    simpa [State.AttemptsSound, ha, hn] using hs
  | attempts s l n h => exact h
  | record s x => simp [State.AttemptsSound, State.writeRecord]
  | context => exact id
  | slots => exact id
  | survey => exact id
  | route => exact id
  | timers => exact id

/-- The lines stay as the route gives. -/
theorem lines (h : Inner s t) (hl : s.call.lineA = (s.call.route == some .A) ∧ s.call.lineB = (s.call.route == some .B)) :
    t.call.lineA = (t.call.route == some .A) ∧ t.call.lineB = (t.call.route == some .B) := by
  induction h with
  | refl s => exact hl
  | trans _ _ h k => exact k (h hl)
  | notice s p k v _ => simpa using hl
  | queue s r q _ => simpa using hl
  | call s f h =>
    obtain ⟨-, -, hr, ha, hb⟩ := h s.call
    simpa [hr, ha, hb] using hl
  | route s v => exact ⟨rfl, rfl⟩
  | record s x => simpa [State.writeRecord] using hl
  | attempts => exact hl
  | context => exact hl
  | slots => exact hl
  | survey => exact hl
  | timers => exact hl

/-- A write keeps a list that a journal may hold. -/
theorem recordsSound_append (l : List JournalRecord) (x : JournalRecord) (h : recordsSound l) (hx : x.gap = 0) :
    recordsSound (journalAppend l x) := by
  obtain ⟨hl, hg⟩ := h
  unfold journalAppend Config.journalSize
  split
  · next hlt =>
    refine ⟨by simp; omega, ?_⟩
    cases l with
    | nil => simp
    | cons g rest =>
      simp only [List.cons_append, List.tail_cons] at hg ⊢
      intro y hy
      rcases List.mem_append.1 hy with hy | hy
      · exact hg y hy
      · simp at hy; rw [hy, hx]
  · split
    · simp [recordsSound]
    · simp [recordsSound]
    · next g y rest =>
      simp only [List.tail_cons, List.length_cons] at hg hl
      refine ⟨by simp; omega, ?_⟩
      simp only [List.tail_cons, List.cons_append]
      intro z hz
      rcases List.mem_append.1 hz with hz | hz
      · exact hg z (List.mem_cons_of_mem _ hz)
      · simp at hz; rw [hz, hx]

/-- The journal and its condition stay sound. -/
theorem journalSound (h : Inner s t) : s.JournalSound → t.JournalSound := by
  induction h with
  | refl s => exact id
  | trans _ _ h k => exact k ∘ h
  | notice s p k v hk =>
    intro h
    have ho : k ≠ .journal := by rintro rfl; simp [NoticeKind.isCondition] at hk
    have hp := State.port_setNotice s p .station k v
    simp only [State.port] at hp
    refine ⟨by simpa using h.1, by simpa using h.2.1, ?_⟩
    rw [hp]
    split
    · simpa [journal_put _ _ _ ho] using h.2.2
    · simpa using h.2.2
  | queue s r q _ =>
    intro h
    have hp := State.port_setQueue s r q .station
    simp only [State.port] at hp
    exact ⟨by simpa using h.1, by simpa using h.2.1, by rw [hp]; simpa using h.2.2⟩
  | record s x =>
    intro h
    exact ⟨recordsSound_append _ _ h.1 rfl, h.2.1, rfl⟩
  | context => exact id
  | slots => exact id
  | survey => exact id
  | call => exact id
  | attempts => exact id
  | route => exact id
  | timers => exact id

end Inner

end Sys2Proof.Machine
end

