-- ==== Sys2Proof/Laws/Quiet.lean ====
section
/-! SUPPORT. `Quiet s t`: a chain of updates of order queues, survey states and event notices alone.  What the survey
scheduler and the supply monitor do when they are told of a change is such a chain, so the table, the call record, the
journal and every radio's state are as before it. -/

namespace Sys2Proof.Machine

variable {s t u : State}

/-- `t` comes from `s` by updates of order queues, the scheduler and event notices. -/
inductive Quiet : State → State → Prop where
  | refl (s : State) : Quiet s s
  | trans {s t u : State} : Quiet s t → Quiet t u → Quiet s u
  /-- A kind of the event sort is posted, or returned. -/
  | notice (s : State) (p : Port) (k : NoticeKind) (v : Bool) (h : k.isCondition = false) : Quiet s (s.setNotice p k v)
  /-- An order queue is replaced. -/
  | queue (s : State) (r : Radio) (q : List Order) (h : kindsDistinct (s.radio r).queue → kindsDistinct q) :
    Quiet s (s.setQueue r q)
  /-- The scheduler is changed. -/
  | survey (s : State) (f : Scheduler → Scheduler) : Quiet s (s.mapSurvey f)

namespace Quiet

/-- A quiet chain is a chain of inner updates. -/
theorem inner (h : Quiet s t) : Inner s t := by
  induction h with
  | refl s => exact .refl s
  | trans _ _ h k => exact h.trans k
  | notice s p k v h => exact .notice s p k v h
  | queue s r q h => exact .queue s r q h
  | survey s f => exact .survey s f

/-- A context is as before, its queue apart. -/
theorem radio (h : Quiet s t) (r : Radio) : { t.radio r with queue := (s.radio r).queue } = s.radio r := by
  induction h with
  | refl s => rfl
  | @trans s t u _ _ h k => rw [← h]; conv => rhs; rw [← k]
  | notice s p k v _ => rw [State.radio_setNotice]
  | queue s r' q _ => rw [State.radio_setQueue]; split <;> rfl
  | survey s f => rfl

theorem state (h : Quiet s t) (r : Radio) : (t.radio r).state = (s.radio r).state := by rw [← h.radio r]
theorem generations (h : Quiet s t) (r : Radio) : (t.radio r).generations = (s.radio r).generations := by
  rw [← h.radio r]
theorem identity (h : Quiet s t) (r : Radio) : (t.radio r).identity = (s.radio r).identity := by rw [← h.radio r]
theorem silence (h : Quiet s t) (r : Radio) : (t.radio r).silence = (s.radio r).silence := by rw [← h.radio r]
theorem start (h : Quiet s t) (r : Radio) : (t.radio r).start = (s.radio r).start := by rw [← h.radio r]
theorem take (h : Quiet s t) (r : Radio) : (t.radio r).take = (s.radio r).take := by rw [← h.radio r]
theorem counts (h : Quiet s t) (r : Radio) : (t.radio r).counts = (s.radio r).counts := by rw [← h.radio r]

/-- The reach table is as before. -/
theorem table (h : Quiet s t) : t.table = s.table := by
  induction h with
  | trans _ _ h k => exact k.trans h
  | notice s p k v _ => simp
  | queue s r q _ => simp
  | refl | survey => rfl

/-- The call record is as before. -/
theorem call (h : Quiet s t) : t.call = s.call := by
  induction h with
  | trans _ _ h k => exact k.trans h
  | notice s p k v _ => simp
  | queue s r q _ => simp
  | refl | survey => rfl

/-- The journal is as before. -/
theorem journal (h : Quiet s t) : t.journal = s.journal := by
  induction h with
  | trans _ _ h k => exact k.trans h
  | notice s p k v _ => simp
  | queue s r q _ => simp
  | refl | survey => rfl

theorem radioReady (h : Quiet s t) (r : Radio) : t.radioReady r = s.radioReady r := by
  unfold State.radioReady; rw [h.state]
theorem radioOpen (h : Quiet s t) (r : Radio) : t.radioOpen r = s.radioOpen r := by unfold State.radioOpen; rw [h.state]
theorem entry (h : Quiet s t) (i : Nat) : t.entry i = s.entry i := by unfold State.entry; rw [h.table]

end Quiet

/-! ### Chains -/

/-- A chain goes on in a conditional. -/
theorem Quiet.ite {c : Prop} [Decidable c] (h : c → Quiet s t) (k : ¬c → Quiet s u) :
    Quiet s (if c then t else u) := by
  split
  · exact h ‹_›
  · exact k ‹_›

/-- A conditional update, or nothing. -/
theorem Quiet.ite_self {c : Prop} [Decidable c] (h : c → Quiet s t) : Quiet s (if c then t else s) :=
  .ite h fun _ => .refl s

theorem State.post_quiet (s : State) (k : NoticeKind) (h : k.isCondition = false := by rfl) : Quiet s (s.post k) :=
  .notice _ _ _ _ h

/-- TABLE is posted, or not, after a chain. -/
theorem noteTable_quiet (b s : State) : Quiet s (noteTable b s) := .ite (fun _ => .refl s) fun _ => State.post_quiet s .table

/-! ### Order queues -/

theorem kindsDistinct_dropKind {k : OrderKind} {q : List Order} (h : kindsDistinct q) : kindsDistinct (dropKind k q) := by
  unfold kindsDistinct dropKind at *
  exact h.sublist ((List.filter_sublist).map _)

/-- An order of a kind that stands behind a queue without that kind keeps kinds distinct (R65). -/
theorem kindsDistinct_enqueue {o : Order} {q : List Order} (h : kindsDistinct q) :
    kindsDistinct (dropKind o.kind q ++ [o]) := by
  have hd := kindsDistinct_dropKind (k := o.kind) h
  unfold kindsDistinct at *
  simp only [List.map_append, List.map_cons, List.map_nil]
  refine List.nodup_append.2 ⟨hd, by simp, ?_⟩
  rintro a ha b hb rfl
  simp only [List.mem_singleton] at hb
  subst hb
  obtain ⟨x, hx, hk⟩ := List.mem_map.1 ha
  have := (List.mem_filter.1 hx).2
  simp [hk] at this

theorem State.enqueue_quiet (s : State) (r : Radio) (o : Order) : Quiet s (s.enqueue r o) := by
  unfold State.enqueue
  split <;> first | exact .refl s | exact .queue _ _ _ kindsDistinct_enqueue

theorem State.dropOrders_quiet (s : State) (r : Radio) (k : OrderKind) : Quiet s (s.dropOrders r k) :=
  .queue _ _ _ kindsDistinct_dropKind

theorem State.dropSnooze_quiet (s : State) (r : Radio) : Quiet s (s.dropSnooze r) :=
  .ite_self fun _ => State.dropOrders_quiet _ _ _

theorem State.queueAnswer_quiet (s : State) (r : Radio) : Quiet s (s.queueAnswer r) :=
  (State.dropSnooze_quiet _ _).trans (State.enqueue_quiet _ _ _)

/-! ### The survey scheduler -/

theorem State.setSurvey_quiet (s : State) (r : Radio) (v : SurveyState) : Quiet s (s.setSurvey r v) := .survey _ _

theorem State.orderSurvey_quiet (s : State) (r : Radio) (b : Bool) : Quiet s (s.orderSurvey r b) :=
  ((Quiet.survey s Scheduler.loadOperate).trans (State.setSurvey_quiet _ _ _)).trans (State.enqueue_quiet _ _ _)

theorem State.surveyTest_quiet (s : State) : Quiet s s.surveyTest := by
  unfold State.surveyTest
  split
  · have h : Quiet s (if s.surveyWanted .A then s.orderSurvey .A false else s) :=
      .ite_self fun _ => State.orderSurvey_quiet _ _ _
    exact h.trans (.ite_self fun _ => State.orderSurvey_quiet _ _ _)
  · refine .ite (fun _ => .refl s) fun _ => ?_
    dsimp only
    exact .ite (fun _ => State.orderSurvey_quiet _ _ _) fun _ => .ite_self fun _ => State.orderSurvey_quiet _ _ _

theorem State.dropSurvey_quiet (s : State) (r : Radio) : Quiet s (s.dropSurvey r) := by
  unfold State.dropSurvey
  refine .ite_self fun _ => (State.dropOrders_quiet s r .survey).trans ?_
  dsimp only
  split
  · exact State.setSurvey_quiet _ _ _
  all_goals exact .refl _

theorem State.removeSurvey_quiet (s : State) (r : Radio) : Quiet s (s.removeSurvey r) :=
  .ite_self fun _ => (State.dropSurvey_quiet s r).trans (State.surveyTest_quiet _)

theorem State.urgentTest_quiet (s : State) (r : Radio) : Quiet s (s.urgentTest r) :=
  .ite_self fun _ => State.orderSurvey_quiet _ _ _

theorem State.urgentBegin_quiet (s : State) : Quiet s s.urgentBegin :=
  ((Quiet.survey s _).trans (State.urgentTest_quiet _ _)).trans (State.urgentTest_quiet _ _)

theorem State.dropUrgent_quiet (s : State) (r : Radio) : Quiet s (s.dropUrgent r) :=
  .ite_self fun _ => State.dropSurvey_quiet _ _

theorem State.urgentEnd_quiet (s : State) : Quiet s s.urgentEnd :=
  (((Quiet.survey s _).trans (State.dropUrgent_quiet _ _)).trans (State.dropUrgent_quiet _ _)).trans
    (State.surveyTest_quiet _)

theorem State.dropNonUrgent_quiet (s : State) (r : Radio) : Quiet s (s.dropNonUrgent r) :=
  .ite_self fun _ => State.dropSurvey_quiet _ _

theorem State.modeChange_quiet (s : State) (m : SurveyMode) : Quiet s (s.modeChange m) := by
  unfold State.modeChange
  have h : Quiet s ((s.dropNonUrgent .A).dropNonUrgent .B) :=
    (State.dropNonUrgent_quiet _ _).trans (State.dropNonUrgent_quiet _ _)
  refine .ite (fun _ => .refl s) fun _ => ?_
  split
  · exact h.trans (.survey _ _)
  · exact h.trans (.survey _ _)
  · exact .survey _ _
  · exact .survey _ _

theorem State.arrangementChange_quiet (s : State) (a : Arrangement) : Quiet s (s.arrangementChange a) :=
  .ite (fun _ => .refl s) fun _ => .survey _ _

/-- What follows a change that the effective values rest on is a chain from the changed state. -/
theorem State.reform_quiet (s : State) (f : State → State) : Quiet (f s) (s.reform f) :=
  ((State.modeChange_quiet _ _).trans (State.arrangementChange_quiet _ _)).trans (State.surveyTest_quiet _)

/-- A chain followed by what a change of the effective values brings. -/
theorem Quiet.reform {f : State → State} (h : Quiet s (f s)) : Quiet s (s.reform f) := h.trans (State.reform_quiet s f)

theorem State.roundComplete_quiet (s : State) : Quiet s s.roundComplete := .reform (.survey _ _)

theorem State.leaveOwed_quiet (s : State) (r : Radio) : Quiet s (s.leaveOwed r) :=
  .ite_self fun _ => (Quiet.survey s _).trans (.ite_self fun _ => State.roundComplete_quiet _)

theorem State.joinOwed_quiet (s : State) (r : Radio) : Quiet s (s.joinOwed r) := .ite_self fun _ => .survey _ _

theorem State.setSurveyMode_quiet (s : State) (m : SurveyMode) : Quiet s (s.setSurveyMode m) :=
  .reform (.survey _ _)

theorem State.surveyEndFirst_quiet (s : State) (r : Radio) (b : Bool) : Quiet s (s.surveyEndFirst r b) :=
  (Quiet.survey s _).trans (.ite_self fun _ => State.leaveOwed_quiet _ _)

theorem State.surveyRest_quiet (s : State) (r : Radio) : Quiet s (s.surveyRest r) := by
  have h : ∀ b, Quiet s (s.loadedPause b).1 := fun b => .survey _ _
  unfold State.surveyRest
  split
  · exact State.setSurvey_quiet _ _ _
  · exact State.setSurvey_quiet _ _ _
  all_goals
    dsimp only
    split
    · exact (h _).trans (State.setSurvey_quiet _ _ _)
    · exact (h _).trans (.survey _ _)

theorem State.surveyEndRest_quiet (s : State) (r : Radio) : Quiet s (s.surveyEndRest r) := by
  unfold State.surveyEndRest
  refine .ite (fun _ => (State.orderSurvey_quiet _ _ _).trans (State.surveyTest_quiet _)) fun _ => ?_
  refine Quiet.trans ?_ (State.surveyTest_quiet _)
  split <;> first | exact State.setSurvey_quiet _ _ _ | exact State.surveyRest_quiet _ _

theorem State.cutSurvey_quiet (s : State) (r : Radio) : Quiet s (s.cutSurvey r) :=
  .ite_self fun _ => (State.surveyEndFirst_quiet _ _ _).trans (State.surveyEndRest_quiet _ _)

theorem State.tellScheduler_quiet (s : State) (r : Radio) : Quiet s (s.tellScheduler r) := by
  unfold State.tellScheduler
  split <;> first
    | exact (State.setSurvey_quiet _ _ _).trans (State.surveyTest_quiet _)
    | exact (State.urgentTest_quiet _ _).trans (State.surveyTest_quiet _)
    | exact .refl s
    | exact State.removeSurvey_quiet _ _

theorem State.dueFromStart_quiet (s : State) (r : Radio) : Quiet s (s.dueFromStart r) := State.setSurvey_quiet _ _ _

theorem State.pauseExpired_quiet (s : State) (r : Radio) : Quiet s (s.pauseExpired r) :=
  (State.setSurvey_quiet _ _ _).trans (State.surveyTest_quiet _)

theorem State.sharedPauseExpired_quiet (s : State) : Quiet s s.sharedPauseExpired :=
  (Quiet.survey s _).trans (State.surveyTest_quiet _)

/-! ### The supply monitor -/

theorem State.sendSnooze_quiet (s : State) (r : Radio) : Quiet s (s.sendSnooze r) := by
  have h : Quiet s ((s.dropSurvey r).enqueue r (.power .snooze)) :=
    (State.dropSurvey_quiet s r).trans (State.enqueue_quiet _ _ _)
  unfold State.sendSnooze
  split <;> first | exact .refl s | exact h.trans (.ite_self fun _ => State.surveyTest_quiet _)

theorem State.sendWake_quiet (s : State) (r : Radio) : Quiet s (s.sendWake r) := State.enqueue_quiet _ _ _

theorem State.criticalSnooze_quiet (s : State) : Quiet s s.criticalSnooze := by
  have h : Quiet s (if s.criticalSleeper .A then s.sendSnooze .A else s) := .ite_self fun _ => State.sendSnooze_quiet _ _
  exact h.trans (.ite_self fun _ => State.sendSnooze_quiet _ _)

theorem State.lowSnooze_quiet (s : State) : Quiet s s.lowSnooze := by
  unfold State.lowSnooze
  dsimp only
  repeat' first
    | exact .refl _
    | exact State.sendSnooze_quiet _ _
    | exact State.sendWake_quiet _ _
    | split

theorem State.wakeOne_quiet (s : State) (r : Radio) : Quiet s (s.wakeOne r) := .ite_self fun _ => State.sendWake_quiet _ _

theorem State.wakeAll_quiet (s : State) : Quiet s s.wakeAll := (State.wakeOne_quiet _ _).trans (State.wakeOne_quiet _ _)

theorem State.snoozeTest_quiet (s : State) (b : Bool) : Quiet s (s.snoozeTest b) := by
  unfold State.snoozeTest
  split
  · exact State.wakeAll_quiet s
  · exact .ite (fun _ => State.lowSnooze_quiet s) fun _ => State.wakeAll_quiet s
  · exact .ite (fun _ => State.criticalSnooze_quiet s) fun _ => State.wakeAll_quiet s

theorem State.readyNeighbours_quiet (s : State) (r : Radio) : Quiet s (s.readyNeighbours r) :=
  ((State.tellScheduler_quiet _ _).trans (State.post_quiet _ _)).trans (State.snoozeTest_quiet _ _)

end Sys2Proof.Machine
end

