-- ==== Sys2Proof/Laws/Slots.lean ====
section
/-! SUPPORT. Slots, entries and their soundness: what each change of an entry or of the slots keeps (R1, R2, R41). -/

namespace Sys2Proof.Machine

variable {l : Preferences} {t : Slots}

/-! ### Reading slots -/

/-- A slot after every entry is changed. -/
theorem slotAt_mapEntries (t : Slots) (f : Entry → Option Entry) (i : Nat) :
    slotAt (mapEntries t f) i = (slotAt t i).bind f := by
  simp only [slotAt, mapEntries, Vector.toList, List.getElem?_map]
  cases t.toArray.toList[i]? <;> rfl

/-- A slot after one slot's content is replaced. -/
theorem slotAt_putSlot (t : Slots) (i j : Nat) (x : Option Entry) :
    slotAt (putSlot t i x) j = if j = i ∧ i < 48 then x else slotAt t j := by
  unfold putSlot
  by_cases h : i < 48
  · simp only [h, dif_pos, and_true, slotAt]
    by_cases e : j = i
    · subst e; simp [Vector.toList, h]
    · rw [if_neg e]
      simp [Vector.toList, Ne.symm e, List.getElem?_set_ne, Array.set]
  · simp [h]

/-- An occupied slot's number lies below 48. -/
theorem lt_of_slotAt {i : Nat} {e : Entry} (h : slotAt t i = some e) : i < 48 := by
  unfold slotAt at h
  by_contra hn
  have : t.toList[i]? = none := by simp; omega
  simp [this] at h

/-- The occupied slots are the slots that hold an entry. -/
theorem mem_occupiedSlots {i : Nat} {e : Entry} : (i, e) ∈ occupiedSlots t ↔ slotAt t i = some e := by
  unfold occupiedSlots slotAt
  simp only [List.mem_filterMap, Prod.exists]
  constructor
  · rintro ⟨x, n, hm, hx⟩
    cases x with
    | none => simp at hx
    | some y =>
      simp only [Option.map_some, Option.some.injEq, Prod.mk.injEq] at hx
      obtain ⟨rfl, rfl⟩ := hx
      have := List.mem_zipIdx_iff_getElem?.1 hm
      simp [this]
  · intro h
    cases hx : t.toList[i]? with
    | none => simp [hx] at h
    | some y =>
      simp only [hx, Option.join_some] at h
      exact ⟨y, i, List.mem_zipIdx_iff_getElem?.2 hx, by simp [h]⟩

/-! ### Changes that keep keys -/

/-- A change of an entry keeps its key and its soundness, where it does not free it. -/
def KeepsEntry (l : Preferences) (e : Entry) (x : Option Entry) : Prop :=
  ∀ e', x = some e' → e'.key = e.key ∧ (e.Sound l → e'.Sound l)

theorem KeepsEntry.none (l : Preferences) (e : Entry) : KeepsEntry l e none := fun _ h => nomatch h
theorem KeepsEntry.self (l : Preferences) (e : Entry) : KeepsEntry l e (some e) := by rintro _ ⟨⟩; exact ⟨rfl, id⟩

theorem KeepsEntry.bind {e : Entry} {x : Option Entry} {f : Entry → Option Entry} (h : KeepsEntry l e x)
    (hf : ∀ a, KeepsEntry l a (f a)) : KeepsEntry l e (x.bind f) := by
  intro e' he
  cases x with
  | none => simp at he
  | some a =>
    obtain ⟨hk, hs⟩ := h a rfl
    obtain ⟨hk', hs'⟩ := hf a e' he
    exact ⟨hk'.trans hk, hs' ∘ hs⟩

/-- Slots whose entries keep key and soundness stay sound. -/
theorem SlotsSound.of_slots {u : Slots} (h : SlotsSound l t)
    (hu : ∀ i e, slotAt u i = some e → ∃ d, slotAt t i = some d ∧ e.key = d.key ∧ (d.Sound l → e.Sound l)) :
    SlotsSound l u where
  entries i e hi := by
    obtain ⟨d, hd, -, hs⟩ := hu i e hi
    exact hs (h.entries i d hd)
  keys i j e f hi hj hk := by
    obtain ⟨d, hd, hkd, -⟩ := hu i e hi
    obtain ⟨g, hg, hkg, -⟩ := hu j f hj
    exact h.keys i j d g hd hg (by rw [← hkd, ← hkg, hk])

theorem SlotsSound.mapEntries {f : Entry → Option Entry} (h : SlotsSound l t) (hf : ∀ e, KeepsEntry l e (f e)) :
    SlotsSound l (mapEntries t f) := by
  refine h.of_slots fun i e hi => ?_
  rw [slotAt_mapEntries] at hi
  cases hd : slotAt t i with
  | none => simp [hd] at hi
  | some d =>
    rw [hd] at hi
    exact ⟨d, rfl, hf d e hi⟩

/-- An occupied slot changed with its key kept. -/
theorem SlotsSound.putSlot_keep {i : Nat} {d : Entry} {x : Option Entry} (h : SlotsSound l t) (hd : slotAt t i = some d)
    (hx : KeepsEntry l d x) : SlotsSound l (putSlot t i x) := by
  refine h.of_slots fun j e hj => ?_
  rw [slotAt_putSlot] at hj
  split at hj
  · next hji =>
    obtain ⟨rfl, -⟩ := hji
    exact ⟨d, hd, hx e hj⟩
  · exact ⟨e, hj, rfl, id⟩

/-- A sound entry of a key that no slot holds joins a slot. -/
theorem SlotsSound.putSlot_new {i : Nat} {e : Entry} (h : SlotsSound l t) (he : e.Sound l)
    (hn : ∀ j d, slotAt t j = some d → d.key ≠ e.key) : SlotsSound l (putSlot t i (some e)) where
  entries j f hj := by
    rw [slotAt_putSlot] at hj
    split at hj
    · cases hj; exact he
    · exact h.entries j f hj
  keys j k f g hj hk hfg := by
    rw [slotAt_putSlot] at hj hk
    split at hj <;> split at hk
    · next h1 h2 => omega
    · cases hj; exact absurd hfg.symm (hn k g hk)
    · cases hk; exact absurd hfg (hn j f hj)
    · exact h.keys j k f g hj hk hfg

/-! ### Changes of one entry -/

/-- A score is at most 1023 (R33). -/
theorem scoreOf_le (b : Biases) (e : Entry) : scoreOf b e ≤ 1023 := by
  unfold scoreOf
  simp only
  omega

theorem Entry.rescore_key (b : Biases) (e : Entry) : (e.rescore b).key = e.key := by
  unfold Entry.rescore; split <;> rfl

theorem Entry.Sound.rescore {b : Biases} {e : Entry} (h : e.Sound l) : (e.rescore b).Sound l := by
  unfold Entry.rescore
  split
  · exact { h with score := scoreOf_le _ _ }
  · exact h

theorem Entry.enterRanked_key (b : Biases) (e : Entry) (h : Heard) : (e.enterRanked b h).key = e.key :=
  Entry.rescore_key _ _

theorem Entry.Sound.enterRanked {b : Biases} {e : Entry} {r : Heard} (h : e.Sound l) : (e.enterRanked b r).Sound l :=
  Entry.Sound.rescore { h with }

/-- A change of an entry that keeps key and soundness in one value. -/
theorem KeepsEntry.of {e e' : Entry} (hk : e'.key = e.key) (hs : e.Sound l → e'.Sound l) : KeepsEntry l e (some e') := by
  rintro _ ⟨⟩; exact ⟨hk, hs⟩

theorem Entry.fadeStep_keeps (p : Profile) (e : Entry) : KeepsEntry l e (some (e.fadeStep p)) := by
  unfold Entry.fadeStep
  split
  · exact .self l e
  · split
    · exact .of (Entry.enterRanked_key _ _ _) .enterRanked
    · exact .of (Entry.enterRanked_key _ _ _) .enterRanked
    · exact .self l e
    · exact .self l e
    · exact .self l e

theorem Entry.lostStep_keeps (p : Profile) (e : Entry) : KeepsEntry l e (some (e.lostStep p)) := by
  unfold Entry.lostStep
  split
  · exact .self l e
  · split
    · exact .of rfl fun h => { h with }
    all_goals exact .self l e

theorem Entry.releaseStep_keeps (p : Profile) (e : Entry) : KeepsEntry l e (e.releaseStep p) := by
  unfold Entry.releaseStep
  split
  · exact .self l e
  · split
    · exact .none l e
    all_goals exact .self l e

/-- Thresholds keep key and soundness (R5). -/
theorem Entry.thresholds_keeps (p : Profile) (e : Entry) : KeepsEntry l e (e.thresholds p) := by
  unfold Entry.thresholds
  have h := ((Entry.fadeStep_keeps (l := l) p e).bind (f := fun a => some (a.lostStep p))
    fun a => a.lostStep_keeps p).bind (f := fun a => a.releaseStep p) fun a => a.releaseStep_keeps p
  simpa using h

theorem Entry.becomeLost_keeps (p : Profile) (e : Entry) : KeepsEntry l e (some (e.becomeLost p)) :=
  .of rfl fun h => { h with }

theorem Entry.hold_keeps (e : Entry) : KeepsEntry l e (some e.hold) := by
  unfold Entry.hold
  split
  · exact .of rfl fun h => { h with }
  · exact .self l e
  · exact .self l e

theorem Entry.unhold_keeps (b : Biases) (e : Entry) : KeepsEntry l e (some (e.unhold b)) := by
  unfold Entry.unhold
  split
  · exact .of (Entry.enterRanked_key _ _ _) .enterRanked
  · exact .self l e
  · exact .self l e

/-- A credit changed stays at most 15 (R36). -/
theorem addCredit_le (c : Nat) (d : Int) : addCredit c d ≤ 15 := by unfold addCredit; omega

theorem relaxCredit_le (c : Nat) (h : c ≤ 15) : relaxCredit c ≤ 15 := by
  unfold relaxCredit Config.creditRest
  split
  · omega
  · split <;> omega

/-! ### Reports -/

/-- What the checks of R24 to R27 leave in a report that passes them. -/
structure Checked.Sound (x : Checked) : Prop where
  network : x.network ≤ 999999
  generation : 2 ≤ x.generation ∧ x.generation ≤ 5
  cell : x.cell ≤ 268435455
  level : -140 ≤ x.level ∧ x.level ≤ -44
  quality : ∀ q, x.quality = some q → q ≤ 31

/-- A report that passes the checks is sound (R24 to R27). -/
theorem checkReport_sound {g : Option GenerationSet} {x : RawReport} {c : Checked} {n : Nat}
    (h : checkReport g x = (.passed c, n)) : c.Sound := by
  unfold checkReport at h
  split at h
  · cases h
  · next hi =>
    split at h
    · cases h
    · simp only at h
      split at h
      · cases h
      · split at h
        · cases h
        · simp only [Prod.mk.injEq, Verdict.passed.injEq] at h
          obtain ⟨rfl, -⟩ := h
          simp only [identityPlausible, Bool.not_eq_true, Bool.not_eq_false', Bool.and_eq_true, decide_eq_true_eq] at hi
          obtain ⟨⟨hg, hc⟩, hn⟩ := hi
          have hgen : 2 ≤ x.generation ∧ x.generation ≤ 5 := by
            cases g with
            | none => simp at hg
            | some s =>
              simp only [Option.any_some] at hg
              unfold GenerationSet.has at hg
              split at hg <;> first | omega | cases hg
          refine ⟨hn, hgen, hc, ?_, ?_⟩
          · simp only [clampLevel]; omega
          · intro q hq
            unfold clampQuality at hq
            split at hq
            · cases hq
            · cases hq; omega

/-- Smoothing stays between the bounds that both levels keep (R30). -/
theorem smooth_bounds (k : Nat) (level m : Int) (hr : -140 ≤ level ∧ level ≤ -44) (hm : -2240 ≤ m ∧ m ≤ -704) :
    -2240 ≤ smooth k level m ∧ smooth k level m ≤ -704 := by
  unfold smooth
  simp only
  generalize hd : 16 * level - m = d
  have hp : (0 : Int) < ((2 ^ k : Nat) : Int) := by positivity
  have hle : (1 : Int) ≤ ((2 ^ k : Nat) : Int) := by omega
  generalize ((2 ^ k : Nat) : Int) = w at hp hle
  rcases Int.lt_trichotomy d 0 with h | h | h
  · have hq : d ≤ d.tdiv w ∧ d.tdiv w ≤ 0 := by
      have e : d.tdiv w = -((-d).tdiv w) := by rw [Int.neg_tdiv, Int.neg_neg]
      have h1 : (-d).tdiv w = (-d) / w := Int.tdiv_eq_ediv_of_nonneg (by omega)
      have h2 : (-d) / w ≤ -d := Int.ediv_le_self _ (by omega)
      have h3 : 0 ≤ (-d) / w := Int.ediv_nonneg (by omega) (by omega)
      omega
    split
    · rw [Int.sign_eq_neg_one_of_neg h]; omega
    · omega
  · subst h; simp; omega
  · have hq : 0 ≤ d.tdiv w ∧ d.tdiv w ≤ d := by
      have h1 : d.tdiv w = d / w := Int.tdiv_eq_ediv_of_nonneg (by omega)
      have h2 : d / w ≤ d := Int.ediv_le_self _ (by omega)
      have h3 : 0 ≤ d / w := Int.ediv_nonneg (by omega) (by omega)
      omega
    split
    · rw [Int.sign_eq_one_of_pos h]; omega
    · omega

theorem quality_or {x y : Option Nat} (hx : ∀ q, x = some q → q ≤ 31) (hy : ∀ q, y = some q → q ≤ 31) :
    ∀ q, x.or y = some q → q ≤ 31 := by
  cases x with
  | none => simpa using hy
  | some a => simpa using hx

theorem Entry.hear_keeps (p : Profile) (e : Entry) (h : Heard) {x : Checked} (hx : x.Sound) :
    KeepsEntry l e (some (e.hear p h x)) := by
  refine .of (Entry.enterRanked_key _ _ _) fun he => Entry.Sound.enterRanked
    { he with
      level := smooth_bounds _ _ _ hx.level he.level
      quality := quality_or hx.quality he.quality
      reports := ?_ }
  have := he.reports
  simp only [satSucc]
  split <;> omega

theorem Entry.takeReport_keeps (p : Profile) (e : Entry) {x : Checked} (hx : x.Sound) :
    KeepsEntry l e (some (e.takeReport p x)) := by
  unfold Entry.takeReport
  split
  · exact e.hear_keeps p _ hx
  · exact e.hear_keeps p _ hx
  · have := hx.level
    exact .of (Entry.enterRanked_key _ _ _) fun he => Entry.Sound.enterRanked
      { he with
        level := by dsimp only; omega
        quality := quality_or hx.quality he.quality
        reports := ⟨Nat.le_refl _, by dsimp only; omega⟩ }

theorem newcomer_sound (s : State) (r : Radio) {x : Checked} (hx : x.Sound) : (newcomer s r x).Sound s.prefs := by
  unfold newcomer
  refine Entry.Sound.rescore ?_
  have := hx.level
  exact ⟨hx.network, hx.generation, hx.cell, by dsimp only; omega, hx.quality,
    ⟨Nat.le_refl _, by dsimp only; omega⟩, by dsimp only [Config.creditRest]; omega, Nat.zero_le _, rfl⟩

theorem newcomer_key (s : State) (r : Radio) (x : Checked) :
    (newcomer s r x).key = (r, x.network, x.generation, x.cell) := by
  unfold newcomer; rw [Entry.rescore_key]; rfl

/-- The report's key is the entry's. -/
theorem sameKey_iff (r : Radio) (x : Checked) (e : Entry) :
    sameKey r x e = true ↔ e.key = (r, x.network, x.generation, x.cell) := by
  simp [sameKey, Entry.key, and_assoc]

/-- The entry found for a report's key stands in its slot (R2). -/
theorem findKey_some {s : State} {r : Radio} {x : Checked} {i : Nat} {e : Entry} (h : findKey s r x = some (i, e)) :
    slotAt s.table.slots i = some e := by
  exact mem_occupiedSlots.1 (List.mem_of_find?_eq_some h)

/-- No slot holds the key of a report for which none is found. -/
theorem findKey_none {s : State} {r : Radio} {x : Checked} (h : findKey s r x = none) (i : Nat) (e : Entry)
    (hi : slotAt s.table.slots i = some e) : e.key ≠ (r, x.network, x.generation, x.cell) := by
  intro hk
  have := List.find?_eq_none.1 h (i, e) (mem_occupiedSlots.2 hi)
  exact this ((sameKey_iff r x e).2 hk)

end Sys2Proof.Machine
end

