-- ==== Sys2Proof/Laws/Table.lean ====
section
/-! SUPPORT. Each operation of the order queues, the notices and the reach table as a chain of `Inner` updates. -/

namespace Sys2Proof.Machine

variable {s t u : State}

/-! ### Posts, contexts, call record -/

theorem State.post_inner (s : State) (k : NoticeKind) (h : k.isCondition = false := by rfl) : Inner s (s.post k) :=
  .notice _ _ _ _ h

/-- A chain goes on in a conditional. -/
theorem Inner.ite {c : Prop} [Decidable c] (h : c → Inner s t) (k : ¬c → Inner s u) :
    Inner s (if c then t else u) := by
  split
  · exact h ‹_›
  · exact k ‹_›

/-- A conditional update, or nothing. -/
theorem Inner.ite_self {c : Prop} [Decidable c] (h : c → Inner s t) : Inner s (if c then t else s) :=
  .ite h fun _ => .refl s

/-- A change of a context that leaves its queue, its state and its two running timers. -/
theorem Inner.mapRadio (s : State) (r : Radio) (f : RadioContext → RadioContext)
    (hq : ∀ c, (f c).queue = c.queue := by intro; rfl) (hs : ∀ c, (f c).state = c.state := by intro; rfl)
    (hi : ∀ c, (f c).silence = c.silence := by intro; rfl) (ht : ∀ c, (f c).start = c.start := by intro; rfl) :
    Inner s (s.mapRadio r f) :=
  .context _ _ _ (hq _) fun h => by unfold RadioContext.TimersSound; rw [hs, hi, ht]; exact h

/-- A change of the call record that leaves its attempts, its route and its lines. -/
theorem Inner.mapCall (s : State) (f : CallRecord → CallRecord)
    (h : ∀ c, (f c).attempts = c.attempts ∧ (f c).nextAttempt = c.nextAttempt ∧ (f c).route = c.route
      ∧ (f c).lineA = c.lineA ∧ (f c).lineB = c.lineB := by intro; exact ⟨rfl, rfl, rfl, rfl, rfl⟩) :
    Inner s (s.mapCall f) := .call s f h

/-! ### Order queues -/

theorem State.enqueue_inner (s : State) (r : Radio) (o : Order) : Inner s (s.enqueue r o) := (s.enqueue_quiet r o).inner

theorem State.dropOrders_inner (s : State) (r : Radio) (k : OrderKind) : Inner s (s.dropOrders r k) :=
  (s.dropOrders_quiet r k).inner

theorem State.dropAttemptOrder_inner (s : State) (r : Radio) (n : Nat) : Inner s (s.dropAttemptOrder r n) :=
  .ite_self fun _ => (State.dropOrders_inner _ _ _).trans (.mapRadio _ _ _)

theorem State.dropSnooze_inner (s : State) (r : Radio) : Inner s (s.dropSnooze r) :=
  .ite_self fun _ => State.dropOrders_inner _ _ _

/-! ### Slots -/

/-- TABLE is posted, or not, after a chain. -/
theorem Inner.noteTable (b : State) (h : Inner s t) : Inner s (noteTable b t) :=
  h.trans (.ite (fun _ => .refl t) fun _ => State.post_inner t .table)

theorem Inner.setSlots (s : State) (t : Slots) (h : SlotsSound s.prefs s.table.slots → SlotsSound s.prefs t) :
    Inner s (s.setSlots t) := .noteTable _ (.slots s t h)

theorem Inner.mapTable (s : State) (f : Entry → Option Entry) (h : ∀ e, KeepsEntry s.prefs e (f e)) :
    Inner s (s.mapTable f) := .setSlots _ _ fun hs => hs.mapEntries h

theorem Inner.mapSlot (s : State) (i : Nat) (f : Entry → Option Entry) (h : ∀ e, KeepsEntry s.prefs e (f e)) :
    Inner s (s.mapSlot i f) := by
  unfold State.mapSlot
  split
  · next e he => exact .setSlots _ _ fun hs => hs.putSlot_keep he (h e)
  · exact .refl s

theorem State.setSilentHold_inner (s : State) (r : Radio) (v : Option Nat) : Inner s (s.setSilentHold r v) :=
  .timers s _ _

theorem State.holdEntries_inner (s : State) (r : Radio) : Inner s (s.holdEntries r) :=
  .mapTable _ _ fun e => by split; exacts [e.hold_keeps, .self _ e]

theorem Entry.unhold_thresholds_keeps {l : Preferences} (b : Biases) (p : Profile) (e : Entry) :
    KeepsEntry l e ((e.unhold b).thresholds p) :=
  ((e.unhold_keeps b).bind (f := (·.thresholds p)) fun a => a.thresholds_keeps p : KeepsEntry l e _)

theorem State.returnEntries_inner (s : State) (r : Radio) : Inner s (s.returnEntries r) :=
  .mapTable _ _ fun e => by
    split
    · split
      · exact e.unhold_thresholds_keeps _ _
      · exact .self _ e
      · exact .self _ e
    · exact .self _ e

theorem Entry.lose_keeps {l : Preferences} (p : Profile) (e : Entry) :
    KeepsEntry l e ((e.becomeLost p).thresholds p) :=
  ((e.becomeLost_keeps p).bind (f := (·.thresholds p)) fun a => a.thresholds_keeps p : KeepsEntry l e _)

/-- The pin of an entry is no part of its key or its soundness. -/
theorem Entry.unpin_keeps {l : Preferences} (v : Bool) (e : Entry) : KeepsEntry l e (some { e with pin := v }) :=
  .of rfl fun h => { h with }

theorem State.restartEntries_inner (s : State) (r : Radio) : Inner s (s.restartEntries r) := by
  refine Inner.trans (.mapTable _ _ fun e => ?_) (State.setSilentHold_inner _ _ _)
  split
  · exact ((e.unpin_keeps false).bind (f := fun a => (a.becomeLost s.profile).thresholds s.profile)
      fun a => a.lose_keeps s.profile : KeepsEntry s.prefs e _)
  · exact .self _ e

theorem State.silentHoldReached_inner (s : State) (r : Radio) : Inner s (s.silentHoldReached r) := by
  refine Inner.trans (.mapTable _ _ fun e => ?_) (State.setSilentHold_inner _ _ _)
  split
  · split
    · exact e.lose_keeps s.profile
    · exact .self _ e
  · exact .self _ e
  · exact .self _ e

theorem State.testSilentHold_inner (s : State) (r : Radio) : Inner s (s.testSilentHold r) := by
  unfold State.testSilentHold
  split
  · exact .ite_self fun _ => State.silentHoldReached_inner s r
  · exact .refl s

theorem State.pinSlot_inner (s : State) (i : Nat) : Inner s (s.pinSlot i) := .mapSlot _ _ _ fun e => e.unpin_keeps true

theorem State.unpinSlot_inner (s : State) (i : Nat) : Inner s (s.unpinSlot i) :=
  .mapSlot _ _ _ fun e => by
    split
    · exact ((e.unpin_keeps false).bind (f := (·.thresholds s.profile)) fun a => a.thresholds_keeps _ :
        KeepsEntry s.prefs e _)
    · exact .self _ e

/-- An exclusion is no part of an entry's key or its soundness. -/
theorem Entry.exclude_keeps {l : Preferences} (v : Option Nat) (e : Entry) :
    KeepsEntry l e (some { e with excludedFor := v }) := .of rfl fun h => { h with }

theorem State.excludeSlot_inner (s : State) (i : Nat) : Inner s (s.excludeSlot i) :=
  .mapSlot _ _ _ fun e => e.exclude_keeps _

theorem State.clearExclusions_inner (s : State) : Inner s s.clearExclusions :=
  .mapTable _ _ (Entry.exclude_keeps none)

theorem State.outcomeEvent_inner (s : State) (i : Nat) (o : OutcomeEvent) : Inner s (s.outcomeEvent i o) :=
  .ite (fun _ => .refl s) fun _ => .mapSlot _ _ _ fun _ =>
    .of (Entry.rescore_key _ _) fun h => Entry.Sound.rescore { h with credit := addCredit_le _ _ }

theorem State.relaxCredits_inner (s : State) : Inner s s.relaxCredits :=
  (Inner.mapTable _ _ fun e => by
    dsimp only
    split
    · exact .self _ e
    · exact .of (Entry.rescore_key _ _) fun h =>
        Entry.Sound.rescore { h with credit := relaxCredit_le _ h.credit }).trans (.timers _ _ _)

theorem State.retain_inner (s : State) : Inner s s.retain :=
  .setSlots _ _ fun hs => hs.of_slots fun i e hi => by
    refine ⟨e, ?_, rfl, id⟩
    simp only [slotAt, Vector.toList, List.getElem?_mapIdx] at hi ⊢
    cases hx : s.table.slots.toArray.toList[i]? with
    | none => simp [hx] at hi
    | some x =>
      cases x with
      | none => simp [hx] at hi
      | some y =>
        simp only [hx, Option.map_some, Option.filter, Option.join_some] at hi
        split at hi <;> simp_all

theorem State.testAges_inner (s : State) : Inner s s.testAges := .mapTable _ _ fun e => e.thresholds_keeps _

/-! ### Reports -/

theorem State.meetTable_inner (s : State) (r : Radio) {x : Checked} (hx : x.Sound) : Inner s (s.meetTable r x).1 := by
  unfold State.meetTable
  split
  · next i e h => exact .setSlots _ _ fun hs => hs.putSlot_keep (findKey_some h) (e.takeReport_keeps _ hx)
  · next h =>
    have hnew : ∀ j d, slotAt s.table.slots j = some d → d.key ≠ (newcomer s r x).key := fun j d hj => by
      rw [newcomer_key]; exact findKey_none h j d hj
    split
    · exact .setSlots _ _ fun hs => hs.putSlot_new (newcomer_sound s r hx) hnew
    · split
      · next i v hv =>
        dsimp only
        split
        · have h1 : Inner s (s.setSlots (putSlot s.table.slots i none)) := .setSlots _ _ fun hs =>
            hs.of_slots fun j e hj => by
              rw [slotAt_putSlot] at hj
              split at hj
              · cases hj
              · exact ⟨e, hj, rfl, id⟩
          refine h1.trans (.setSlots _ _ fun hs => ?_)
          have hp : (s.setSlots (putSlot s.table.slots i none)).prefs = s.prefs := h1.same.prefs
          rw [hp] at hs ⊢
          have ht : (s.setSlots (putSlot s.table.slots i none)).table.slots = putSlot s.table.slots i none := by
            unfold State.setSlots noteTable; split <;> simp
          rw [ht] at hs ⊢
          refine hs.putSlot_new (newcomer_sound s r hx) fun j d hj => ?_
          rw [slotAt_putSlot] at hj
          split at hj
          · cases hj
          · exact hnew j d hj
        · exact .refl s
      · exact .refl s

end Sys2Proof.Machine
end

