-- ==== Sys2Proof/Laws/Survey.lean ====
section
/-! SUPPORT. Each operation of the survey scheduler and the supply monitor as a chain of `Inner` updates. -/

namespace Sys2Proof.Machine

variable {s t u : State}

/-! ### The survey scheduler and the snooze test -/

theorem State.setSurvey_inner (s : State) (r : Radio) (v : SurveyState) : Inner s (s.setSurvey r v) :=
  (s.setSurvey_quiet r v).inner
theorem State.orderSurvey_inner (s : State) (r : Radio) (b : Bool) : Inner s (s.orderSurvey r b) :=
  (s.orderSurvey_quiet r b).inner
theorem State.surveyTest_inner (s : State) : Inner s s.surveyTest := (s.surveyTest_quiet).inner
theorem State.dropSurvey_inner (s : State) (r : Radio) : Inner s (s.dropSurvey r) := (s.dropSurvey_quiet r).inner
theorem State.removeSurvey_inner (s : State) (r : Radio) : Inner s (s.removeSurvey r) :=
  (s.removeSurvey_quiet r).inner
theorem State.urgentTest_inner (s : State) (r : Radio) : Inner s (s.urgentTest r) := (s.urgentTest_quiet r).inner
theorem State.urgentBegin_inner (s : State) : Inner s s.urgentBegin := (s.urgentBegin_quiet).inner
theorem State.dropUrgent_inner (s : State) (r : Radio) : Inner s (s.dropUrgent r) := (s.dropUrgent_quiet r).inner
theorem State.urgentEnd_inner (s : State) : Inner s s.urgentEnd := (s.urgentEnd_quiet).inner
theorem State.dropNonUrgent_inner (s : State) (r : Radio) : Inner s (s.dropNonUrgent r) :=
  (s.dropNonUrgent_quiet r).inner
theorem State.modeChange_inner (s : State) (m : SurveyMode) : Inner s (s.modeChange m) := (s.modeChange_quiet m).inner
theorem State.arrangementChange_inner (s : State) (a : Arrangement) : Inner s (s.arrangementChange a) :=
  (s.arrangementChange_quiet a).inner
/-- What follows a change that the effective values rest on is a chain from the changed state. -/
theorem State.reform_inner (s : State) (f : State → State) : Inner (f s) (s.reform f) := (s.reform_quiet f).inner
/-- A chain followed by what a change of the effective values brings. -/
theorem Inner.reform {f : State → State} (h : Inner s (f s)) : Inner s (s.reform f) := h.trans (State.reform_inner s f)
theorem State.roundComplete_inner (s : State) : Inner s s.roundComplete := (s.roundComplete_quiet).inner
theorem State.leaveOwed_inner (s : State) (r : Radio) : Inner s (s.leaveOwed r) := (s.leaveOwed_quiet r).inner
theorem State.joinOwed_inner (s : State) (r : Radio) : Inner s (s.joinOwed r) := (s.joinOwed_quiet r).inner
theorem State.setSurveyMode_inner (s : State) (m : SurveyMode) : Inner s (s.setSurveyMode m) :=
  (s.setSurveyMode_quiet m).inner
theorem State.surveyEndFirst_inner (s : State) (r : Radio) (b : Bool) : Inner s (s.surveyEndFirst r b) :=
  (s.surveyEndFirst_quiet r b).inner
theorem State.surveyRest_inner (s : State) (r : Radio) : Inner s (s.surveyRest r) := (s.surveyRest_quiet r).inner
theorem State.surveyEndRest_inner (s : State) (r : Radio) : Inner s (s.surveyEndRest r) :=
  (s.surveyEndRest_quiet r).inner
theorem State.cutSurvey_inner (s : State) (r : Radio) : Inner s (s.cutSurvey r) := (s.cutSurvey_quiet r).inner
theorem State.tellScheduler_inner (s : State) (r : Radio) : Inner s (s.tellScheduler r) :=
  (s.tellScheduler_quiet r).inner
theorem State.dueFromStart_inner (s : State) (r : Radio) : Inner s (s.dueFromStart r) := (s.dueFromStart_quiet r).inner
theorem State.pauseExpired_inner (s : State) (r : Radio) : Inner s (s.pauseExpired r) :=
  (s.pauseExpired_quiet r).inner
theorem State.sharedPauseExpired_inner (s : State) : Inner s s.sharedPauseExpired :=
  (s.sharedPauseExpired_quiet).inner
theorem State.sendSnooze_inner (s : State) (r : Radio) : Inner s (s.sendSnooze r) := (s.sendSnooze_quiet r).inner
theorem State.sendWake_inner (s : State) (r : Radio) : Inner s (s.sendWake r) := (s.sendWake_quiet r).inner
theorem State.criticalSnooze_inner (s : State) : Inner s s.criticalSnooze := (s.criticalSnooze_quiet).inner
theorem State.lowSnooze_inner (s : State) : Inner s s.lowSnooze := (s.lowSnooze_quiet).inner
theorem State.wakeOne_inner (s : State) (r : Radio) : Inner s (s.wakeOne r) := (s.wakeOne_quiet r).inner
theorem State.wakeAll_inner (s : State) : Inner s s.wakeAll := (s.wakeAll_quiet).inner
theorem State.snoozeTest_inner (s : State) (b : Bool) : Inner s (s.snoozeTest b) := (s.snoozeTest_quiet b).inner

/-! ### The condition -/

theorem State.retainOnCondition_inner (s : State) (c : Condition) : Inner s (s.retainOnCondition c) :=
  .ite_self fun _ => State.retain_inner _

theorem State.staggerOnCondition_inner (s : State) (c : Condition) : Inner s (s.staggerOnCondition c) :=
  .ite_self fun _ => .mapCall _ _

/-- What follows a change of the condition is a chain from the state with the new condition, and is nothing when the
condition stands (R157). -/
theorem State.formCondition_inner (s : State) :
    Inner { s with supply := { s.supply with condition := s.supply.formed } } s.formCondition := by
  unfold State.formCondition
  dsimp only
  split
  · next h => rw [h]; exact .refl s
  · refine Inner.trans (State.reform_inner s fun s' => { s' with supply := { s'.supply with condition := s.supply.formed } }) ?_
    exact ((State.retainOnCondition_inner _ _).trans (State.staggerOnCondition_inner _ _)).trans
      ((State.snoozeTest_inner _ _).trans (State.post_inner _ _))

/-! ### Radio states -/

theorem RadioContext.TimersSound.enter {c : RadioContext} (h : c.TimersSound) (st : RadioState) :
    (c.enter st).TimersSound := by
  obtain ⟨h1, h2⟩ := h
  unfold RadioContext.enter RadioContext.TimersSound
  dsimp only
  refine ⟨?_, ?_⟩
  · split
    · next hw =>
      split
      · next hc => rw [h1, hc, hw]
      · rw [hw]; rfl
    · next hw => simpa using hw
  · by_cases e : st = .starting
    · subst e; rfl
    · simp [e]

theorem State.setRadioState_inner (s : State) (r : Radio) (st : RadioState) : Inner s (s.setRadioState r st) := by
  have h : Inner s (noteTable s (s.mapRadio r (·.enter st))) :=
    .noteTable _ (.context s r _ rfl fun h => h.enter st)
  exact h.trans (.ite_self fun _ => State.setSilentHold_inner _ _ _)

theorem State.readyNeighbours_inner (s : State) (r : Radio) : Inner s (s.readyNeighbours r) :=
  ((State.tellScheduler_inner _ _).trans (State.post_inner _ _)).trans (State.snoozeTest_inner _ _)

theorem State.release_inner (s : State) (r : Radio) : Inner s (s.release r) := by
  unfold State.release
  split <;> first
    | exact .refl s
    | exact ((State.setRadioState_inner _ _ _).trans (State.returnEntries_inner _ _)).trans
        (State.readyNeighbours_inner _ _)

theorem State.enterCall_inner (s : State) (r : Radio) (st : RadioState) : Inner s (s.enterCall r st) :=
  .ite_self fun _ => ((State.setRadioState_inner _ _ _).trans (State.tellScheduler_inner _ _)).trans
    (State.snoozeTest_inner _ _)

theorem State.queueAttempt_inner (s : State) (r : Radio) (o : Order) : Inner s (s.queueAttempt r o) := by
  unfold State.queueAttempt
  have h : ∀ t : State, Inner t (if (s.radio r).state = .surveying then t.cutSurvey r else t) := fun t =>
    .ite_self fun _ => State.cutSurvey_inner _ _
  refine Inner.trans (State.setRadioState_inner s r .attempting) (Inner.trans (h _) ?_)
  exact (((State.removeSurvey_inner _ _).trans (State.dropSnooze_inner _ _)).trans (.mapRadio _ _ _)).trans
    ((State.enqueue_inner _ _ _).trans (State.snoozeTest_inner _ _))

theorem State.queueAnswer_inner (s : State) (r : Radio) : Inner s (s.queueAnswer r) :=
  (State.dropSnooze_inner _ _).trans (State.enqueue_inner _ _ _)

end Sys2Proof.Machine
end

