-- ==== Sys2Proof/Laws/Call.lean ====
section
/-! SUPPORT. Each operation of the call controller and the radio supervisor as a chain of `Inner` updates. -/

namespace Sys2Proof.Machine

variable {s t u : State}

/-! ### Call state, route, stagger -/

theorem State.setCall_inner (s : State) (st : CallState) : Inner s (s.setCall st) := by
  unfold State.setCall
  refine .ite (fun _ => .refl s) fun _ => ?_
  have h1 : ∀ t : State, Inner t (if s.call.state = .seeking then t.urgentEnd else t) := fun t =>
    .ite_self fun _ => State.urgentEnd_inner _
  have h2 : ∀ t : State, Inner t (if st = .seeking then t.urgentBegin else t) := fun t =>
    .ite_self fun _ => State.urgentBegin_inner _
  exact ((((Inner.mapCall s _).trans (State.post_inner _ _)).trans (h1 _)).trans (h2 _)).trans
    (State.snoozeTest_inner _ _)

theorem State.setRoute_inner (s : State) (v : Option Radio) : Inner s (s.setRoute v) :=
  .ite (fun _ => .refl s) fun _ => (Inner.route s v).trans (State.post_inner _ _)

theorem State.setStagger_inner (s : State) (g : Stagger) : Inner s (s.setStagger g) := .mapCall _ _

/-! ### Attempts in flight -/

theorem AttemptsSound.map {l : List Attempt} {n : Nat} (h : AttemptsSound l n) (f : Attempt → Attempt)
    (hr : ∀ a, (f a).radio = a.radio) (hn : ∀ a, (f a).number = a.number) : AttemptsSound (l.map f) n where
  radios := by simpa [List.map_map, Function.comp_def, hr] using h.radios
  numbers := by simpa [List.map_map, Function.comp_def, hn] using h.numbers
  range := by
    intro a ha
    obtain ⟨b, hb, rfl⟩ := List.mem_map.1 ha
    rw [hn]; exact h.range b hb
  next := h.next
  fresh := by
    intro a ha
    obtain ⟨b, hb, rfl⟩ := List.mem_map.1 ha
    rw [hn]; exact h.fresh b hb

theorem AttemptsSound.filter {l : List Attempt} {n : Nat} (h : AttemptsSound l n) (p : Attempt → Bool) :
    AttemptsSound (l.filter p) n where
  radios := h.radios.sublist ((List.filter_sublist).map _)
  numbers := h.numbers.sublist ((List.filter_sublist).map _)
  range := fun a ha => h.range a (List.mem_filter.1 ha).1
  next := h.next
  fresh := fun a ha => h.fresh a (List.mem_filter.1 ha).1

theorem State.mapAttempt_inner (s : State) (n : Nat) (f : Attempt → Attempt)
    (hr : ∀ a, (f a).radio = a.radio := by intro; rfl) (hn : ∀ a, (f a).number = a.number := by intro; rfl) :
    Inner s (s.mapAttempt n f) :=
  .attempts s _ s.call.nextAttempt fun h => AttemptsSound.map h _ (fun a => by split <;> simp [hr])
    (fun a => by split <;> simp [hn])

theorem State.removeAttempt_inner (s : State) (n : Nat) : Inner s (s.removeAttempt n) :=
  .attempts s _ s.call.nextAttempt fun h => AttemptsSound.filter h _

theorem State.recordAttempt_inner (s : State) (a : Attempt) (o : RecordOutcome) (x : Option EndReason) :
    Inner s (s.recordAttempt a o x) := .record _ _

theorem State.closeAttempt_inner (s : State) (a : Attempt) (o : RecordOutcome) : Inner s (s.closeAttempt a o) :=
  (State.recordAttempt_inner _ _ _ _).trans (State.removeAttempt_inner _ _)

/-- Attempts that name different radios are at most two. -/
theorem length_le_of_radios {l : List Attempt} (h1 : (l.map (·.radio)).Nodup) : l.length ≤ 2 := by
  by_contra hc
  match l, h1, hc with
  | [], _, hc => simp at hc
  | [_], _, hc => simp at hc
  | [_, _], _, hc => simp at hc
  | a :: b :: c :: _, h1, _ =>
    simp only [List.map_cons, List.nodup_cons, List.mem_cons, not_or] at h1
    revert h1
    cases a.radio <;> cases b.radio <;> cases c.radio <;> simp

/-- At most two attempts are in flight: they name different radios (R87). -/
theorem AttemptsSound.length_le {l : List Attempt} {n : Nat} (h : AttemptsSound l n) : l.length ≤ 2 :=
  length_le_of_radios h.radios

theorem nextNumber_range (n : Nat) (h : 1 ≤ n ∧ n ≤ 255) : 1 ≤ nextNumber n ∧ nextNumber n ≤ 255 := by
  unfold nextNumber; split <;> omega

/-- Three numbers in a row are different (R94). -/
theorem nextNumber_ne (n : Nat) (h : 1 ≤ n ∧ n ≤ 255) :
    nextNumber n ≠ n ∧ nextNumber (nextNumber n) ≠ n ∧ nextNumber (nextNumber n) ≠ nextNumber n := by
  unfold nextNumber
  refine ⟨?_, ?_, ?_⟩ <;> (repeat' split) <;> omega

/-- The number after one that an attempt in flight has taken is in range, and no attempt in flight has it: at most two are
in flight (R94). -/
theorem numberAfter_spec {l : List Attempt} {n : Nat} (hl : l.length ≤ 2) (hm : ∃ a ∈ l, a.number = n)
    (hn : 1 ≤ n ∧ n ≤ 255) :
    (1 ≤ numberAfter l n ∧ numberAfter l n ≤ 255) ∧ ∀ a ∈ l, a.number ≠ numberAfter l n := by
  have hd := nextNumber_ne _ hn
  have r1 := nextNumber_range _ hn
  have r2 := nextNumber_range _ r1
  unfold numberAfter
  split
  · next h1 =>
    refine ⟨r2, ?_⟩
    obtain ⟨a, ha, ea⟩ := hm
    obtain ⟨b, hb, eb⟩ := List.any_eq_true.1 h1
    simp only [beq_iff_eq] at eb
    intro c hc e
    have hu : c.number ≠ a.number ∧ c.number ≠ b.number ∧ a.number ≠ b.number := by
      rw [e, ea, eb]; exact ⟨hd.2.1, hd.2.2, hd.1.symm⟩
    have hs : ([a, b, c] : List Attempt) ⊆ l := by
      intro x hx; simp only [List.mem_cons, List.not_mem_nil, or_false] at hx
      rcases hx with rfl | rfl | rfl <;> assumption
    have hnd : ([a, b, c] : List Attempt).Nodup := by
      simp only [List.nodup_cons, List.mem_cons, List.not_mem_nil, or_false, not_or, not_false_eq_true, and_true,
        List.nodup_nil]
      exact ⟨⟨fun x => hu.2.2 (by rw [x]), fun x => hu.1 (by rw [x])⟩, fun x => hu.2.1 (by rw [x])⟩
    have := (List.subperm_of_subset hnd hs).length_le
    simp at this
    omega
  · next h1 =>
    refine ⟨r1, fun a ha e => h1 (List.any_eq_true.2 ⟨a, ha, by simp [e]⟩)⟩

/-! ### Selection -/

theorem insertRanked_perm (x : Nat × Entry) (l : List (Nat × Entry)) : (insertRanked x l).Perm (x :: l) := by
  induction l with
  | nil => exact .refl _
  | cons y r ih =>
    unfold insertRanked
    split
    · exact .refl _
    · exact (ih.cons y).trans (.swap x y r)

theorem mem_insertRanked {x y : Nat × Entry} {l : List (Nat × Entry)} : y ∈ insertRanked x l ↔ y = x ∨ y ∈ l := by
  rw [(insertRanked_perm x l).mem_iff, List.mem_cons]

/-- The ranked list holds the ranked entries, each with its slot (R19). -/
theorem mem_rankedList {t : Slots} {i : Nat} {e : Entry} :
    (i, e) ∈ rankedList t ↔ slotAt t i = some e ∧ e.isRanked = true := by
  unfold rankedList
  have h : ∀ l : List (Nat × Entry), (i, e) ∈ l.foldr insertRanked [] ↔ (i, e) ∈ l := by
    intro l
    induction l with
    | nil => exact Iff.rfl
    | cons y r ih => rw [List.foldr_cons, mem_insertRanked, ih, List.mem_cons]
  rw [h, List.mem_filter, mem_occupiedSlots]

/-- A candidate is ranked, of a READY or SURVEYING radio that no attempt in flight names, not excluded (R92). -/
theorem State.mem_candidates {i : Nat} {e : Entry} (h : (i, e) ∈ s.candidates) :
    s.entry i = some e ∧ e.isRanked = true ∧ s.radioOpen e.radio = true ∧ e.excludedFor = none
      ∧ ∀ a ∈ s.call.attempts, a.slot ≠ i ∧ a.radio ≠ e.radio := by
  obtain ⟨hm, hp⟩ := List.mem_filter.1 h
  obtain ⟨he, hr⟩ := mem_rankedList.1 hm
  simp only [Bool.and_eq_true, Option.isNone_iff_eq_none, List.all_eq_true, bne_iff_ne, ne_eq] at hp
  exact ⟨he, hr, hp.1.1, hp.1.2, hp.2⟩

theorem mem_eligible {l : List (Nat × Entry)} {x : Nat × Entry} (h : x ∈ eligible l) : x ∈ l := by
  unfold eligible at h
  split at h
  · exact (List.mem_filter.1 h).1
  · exact h

/-- The walk chooses a candidate (R92, R93). -/
theorem State.choose_mem {i : Nat} {e : Entry} (h : s.choose = some (i, e)) : (i, e) ∈ s.candidates := by
  refine mem_eligible ?_
  unfold State.choose at h
  dsimp only at h
  split at h
  · next r _ =>
    cases hf : (eligible s.candidates).find? fun x => x.2.radio == otherRadio r with
    | some y => rw [hf] at h; cases h; exact List.mem_of_find?_eq_some hf
    | none => rw [hf] at h; exact List.mem_of_mem_head? h
  · exact List.mem_of_mem_head? h

/-- The restricted walk chooses a candidate of its radio (R93). -/
theorem State.chooseOn_mem {r : Radio} {i : Nat} {e : Entry} (h : s.chooseOn r = some (i, e)) :
    (i, e) ∈ s.candidates ∧ e.radio = r := by
  have := mem_eligible (List.mem_of_mem_head? h)
  obtain ⟨hm, hr⟩ := List.mem_filter.1 this
  exact ⟨hm, by simpa using hr⟩

/-! ### Ordering an attempt -/

theorem State.enterPlacing_inner (s : State) : Inner s s.enterPlacing := by
  unfold State.enterPlacing
  split <;> first | exact State.setCall_inner _ _ | exact .refl s

theorem State.staggerOnOrder_inner (s : State) (n : Nat) : Inner s (s.staggerOnOrder n) :=
  .ite (fun _ => State.setStagger_inner _ _) fun _ => .ite_self fun _ => State.setStagger_inner _ _

/-- The radios of the attempts in flight stay different when an attempt on another radio joins them. -/
theorem radios_append {l : List Attempt} (h : (l.map (·.radio)).Nodup) {a : Attempt} (hr : ∀ b ∈ l, b.radio ≠ a.radio) :
    ((l ++ [a]).map (·.radio)).Nodup := by
  simp only [List.map_append, List.map_cons, List.map_nil]
  refine List.nodup_append.2 ⟨h, by simp, ?_⟩
  rintro x hx y hy rfl
  obtain ⟨b, hb, rfl⟩ := List.mem_map.1 hx
  exact hr b hb (by simpa using hy)

/-- An attempt with the next attempt number joins those in flight (R94). -/
theorem AttemptsSound.append {l : List Attempt} {n : Nat} (h : AttemptsSound l n) {a : Attempt}
    (hr : ∀ b ∈ l, b.radio ≠ a.radio) (ha : a.number = n) : AttemptsSound (l ++ [a]) (numberAfter (l ++ [a]) n) where
  radios := radios_append h.radios hr
  numbers := by
    simp only [List.map_append, List.map_cons, List.map_nil]
    refine List.nodup_append.2 ⟨h.numbers, by simp, ?_⟩
    rintro x hx y hy rfl
    obtain ⟨b, hb, rfl⟩ := List.mem_map.1 hx
    exact h.fresh b hb (by rw [← ha]; simpa using hy)
  range := by
    intro b hb
    rcases List.mem_append.1 hb with hb | hb
    · exact h.range b hb
    · simp at hb; subst hb; rw [ha]; exact h.next
  next := (numberAfter_spec (length_le_of_radios (radios_append h.radios hr)) ⟨a, by simp, ha⟩ h.next).1
  fresh := (numberAfter_spec (length_le_of_radios (radios_append h.radios hr)) ⟨a, by simp, ha⟩ h.next).2

theorem State.orderAttempt_inner (s : State) (i : Nat) (e : Entry) (h : ∀ a ∈ s.call.attempts, a.radio ≠ e.radio) :
    Inner s (s.orderAttempt i e) := by
  unfold State.orderAttempt
  dsimp only
  refine Inner.trans (.attempts s (s.call.attempts ++ [newAttempt s i e s.call.nextAttempt])
    (numberAfter (s.call.attempts ++ [newAttempt s i e s.call.nextAttempt]) s.call.nextAttempt) fun hs => ?_) ?_
  · exact AttemptsSound.append (a := newAttempt s i e s.call.nextAttempt) hs h rfl
  · exact ((State.pinSlot_inner _ _).trans (State.queueAttempt_inner _ _ _)).trans
      ((State.enterPlacing_inner _).trans (State.staggerOnOrder_inner _ _))

/-! ### Quiet endings, selection -/

theorem State.endQuietly_inner (s : State) (a : Attempt) (o : RecordOutcome) : Inner s (s.endQuietly a o) :=
  ((((State.outcomeEvent_inner _ _ _).trans (State.unpinSlot_inner _ _)).trans
    (State.dropAttemptOrder_inner _ _ _)).trans (State.release_inner _ _)).trans (State.closeAttempt_inner _ _ _)

/-- A chain for each item of a list. -/
theorem Inner.foldl {α : Type} (f : State → α → State) (h : ∀ s a, Inner s (f s a)) (l : List α) (s : State) :
    Inner s (l.foldl f s) := by
  induction l generalizing s with
  | nil => exact .refl s
  | cons a r ih => exact (h s a).trans (ih _)

theorem State.giveUpSurplus_inner (s : State) : Inner s s.giveUpSurplus :=
  .foldl _ (fun s a => State.endQuietly_inner s a .surplus) _ _

theorem State.foundNothing_inner (s : State) : Inner s s.foundNothing := by
  unfold State.foundNothing
  split <;> first | exact (State.giveUpSurplus_inner s).trans (State.setCall_inner _ _) | exact .refl s

theorem State.runSelection_inner (s : State) : Inner s s.runSelection := by
  unfold State.runSelection
  split
  · next i e h => exact State.orderAttempt_inner s i e fun a ha => ((State.mem_candidates (State.choose_mem h)).2.2.2.2 a ha).2
  · exact State.foundNothing_inner s

theorem State.secondWalk_inner (s : State) (r : Radio) : Inner s (s.secondWalk r) := by
  unfold State.secondWalk
  split
  · next i e h =>
    exact State.orderAttempt_inner s i e fun a ha => ((State.mem_candidates (State.chooseOn_mem h).1).2.2.2.2 a ha).2
  · exact State.setStagger_inner _ _

theorem State.callEvent_inner (s : State) (r : Radio) : Inner s (s.callEvent r) := by
  unfold State.callEvent
  split
  · exact State.runSelection_inner s
  · split <;> first | exact .ite_self fun _ => State.secondWalk_inner _ _ | exact .refl s
  · split <;> first | exact .ite_self fun _ => State.secondWalk_inner _ _ | exact .refl s
  all_goals exact .refl s

theorem settle_inner (b : State) (h : Inner s t) : Inner s (settle b t) := by
  have h1 : Inner t (if becameReady b t .A then t.callEvent .A else t) := .ite_self fun _ => State.callEvent_inner _ _
  exact h.trans (h1.trans (.ite_self fun _ => State.callEvent_inner _ _))

theorem State.handling_inner (s : State) (f : State → State) (h : Inner s (f s)) : Inner s (s.handling f) :=
  settle_inner s h

theorem State.enterReady_inner (s : State) (r : Radio) : Inner s (s.enterReady r) :=
  (((State.setRadioState_inner _ _ _).trans (State.returnEntries_inner _ _)).trans (State.callEvent_inner _ _)).trans
    (State.readyNeighbours_inner _ _)

theorem State.finishSurvey_inner (s : State) (r : Radio) : Inner s (s.finishSurvey r) := by
  unfold State.finishSurvey
  dsimp only
  refine Inner.trans (State.surveyEndFirst_inner s r true) (.ite (fun _ => ?_) fun _ => State.surveyEndRest_inner _ _)
  exact ((((State.setRadioState_inner _ _ _).trans (State.returnEntries_inner _ _)).trans
    (State.callEvent_inner _ _)).trans (State.surveyEndRest_inner _ _)).trans
    ((State.post_inner _ _).trans (State.snoozeTest_inner _ _))

/-! ### Failure, connection, drop -/

theorem State.startBackoff_inner (s : State) : Inner s s.startBackoff :=
  .ite (fun _ => (Inner.mapCall s _).trans (State.setCall_inner _ _)) fun _ => State.runSelection_inner _

theorem State.afterFailure_inner (s : State) : Inner s s.afterFailure := by
  unfold State.afterFailure
  refine .ite_self fun _ => ?_
  split
  · exact State.setStagger_inner _ _
  · exact ((State.setStagger_inner _ _).trans (State.giveUpSurplus_inner _)).trans (State.startBackoff_inner _)

theorem State.failAttempt_inner (s : State) (a : Attempt) (c : Cause) (b : Bool) : Inner s (s.failAttempt a c b) := by
  unfold State.failAttempt
  dsimp only
  refine Inner.trans ?_ (State.afterFailure_inner _)
  refine Inner.trans ?_ (State.closeAttempt_inner _ _ _)
  refine Inner.trans ?_ (State.release_inner _ _)
  refine Inner.trans ?_ (.ite_self fun _ => State.enqueue_inner _ _ _)
  refine Inner.trans ?_ (State.dropAttemptOrder_inner _ _ _)
  refine Inner.trans ?_ (.mapCall _ _)
  exact ((State.outcomeEvent_inner _ _ _).trans (State.unpinSlot_inner _ _)).trans (State.excludeSlot_inner _ _)

theorem State.withdraw_inner (s : State) (a : Attempt) : Inner s (s.withdraw a) := State.endQuietly_inner _ _ _

theorem State.makeSurplus_inner (s : State) (a : Attempt) : Inner s (s.makeSurplus a) :=
  (State.mapAttempt_inner _ _ _).trans (State.enqueue_inner _ _ _)

theorem State.settleLoser_inner (s : State) (a : Attempt) : Inner s (s.settleLoser a) :=
  .ite (fun _ => State.withdraw_inner _ _) fun _ => State.makeSurplus_inner _ _

theorem State.connectAttempt_inner (s : State) (a : Attempt) : Inner s (s.connectAttempt a) := by
  unfold State.connectAttempt
  dsimp only
  refine Inner.trans ?_ (.foldl _ State.settleLoser_inner _ _)
  refine Inner.trans ?_ (State.setRoute_inner _ _)
  refine Inner.trans ?_ (State.setStagger_inner _ _)
  refine Inner.trans ?_ (State.setCall_inner _ _)
  refine Inner.trans ?_ (.mapCall _ _)
  exact ((State.mapAttempt_inner _ _ _).trans (State.outcomeEvent_inner _ _ _)).trans (State.enterCall_inner _ _ _)

theorem State.dropLeg_inner (s : State) (a : Attempt) (c : Cause) : Inner s (s.dropLeg a c) := by
  unfold State.dropLeg
  dsimp only
  refine Inner.trans ?_ ((State.setCall_inner _ _).trans (State.runSelection_inner _))
  refine Inner.trans ?_ ((State.setRoute_inner _ _).trans (.mapCall _ _))
  refine Inner.trans ?_ (.mapCall _ _)
  exact (((State.outcomeEvent_inner _ _ _).trans (State.unpinSlot_inner _ _)).trans
    (State.excludeSlot_inner _ _)).trans ((State.release_inner _ _).trans (State.closeAttempt_inner _ _ _))

/-! ### The callback part and the end of a call -/

theorem State.mapPart_inner (s : State) (f : CallbackPart → CallbackPart) : Inner s (s.mapPart f) := .mapCall _ _

theorem State.removeOffer_inner (s : State) : Inner s s.removeOffer :=
  (State.mapPart_inner _ _).trans (State.snoozeTest_inner _ _)

theorem State.endPart_inner (s : State) : Inner s s.endPart :=
  (Inner.mapCall s _).trans (State.setCall_inner _ _)

theorem State.formPart_inner (s : State) (n : ConnectionNote) : Inner s (s.formPart n) := by
  unfold State.formPart
  dsimp only
  have h : Inner s (if s.noteStands n then s.pinSlot n.slot else s) := .ite_self fun _ => State.pinSlot_inner _ _
  exact (h.trans ((Inner.mapCall _ _).trans (State.snoozeTest_inner _ _))).trans
    ((State.enqueue_inner _ _ _).trans (State.setCall_inner _ _))

theorem State.backToCallback_inner (s : State) (p : CallbackPart) : Inner s (s.backToCallback p) := by
  unfold State.backToCallback
  dsimp only
  refine Inner.trans (State.removeOffer_inner s) ?_
  split
  · exact (State.enqueue_inner _ _ _).trans (State.setCall_inner _ _)
  · exact (State.setCall_inner _ _).trans (State.endPart_inner _)

theorem State.afterEnding_inner (s : State) : Inner s s.afterEnding := by
  unfold State.afterEnding
  split
  · exact State.backToCallback_inner _ _
  · split
    · exact .ite (fun _ => State.formPart_inner _ _) fun _ => State.setCall_inner _ _
    · exact State.setCall_inner _ _

theorem State.completeEnding_inner (s : State) (x : EndReason) : Inner s (s.completeEnding x) :=
  (((Inner.record s _).trans (State.clearExclusions_inner _)).trans (.mapCall _ _)).trans (State.afterEnding_inner _)

theorem State.testEnding_inner (s : State) : Inner s s.testEnding := .ite_self fun _ => State.completeEnding_inner _ _

theorem State.enterEnding_inner (s : State) : Inner s s.enterEnding :=
  (Inner.mapCall s _).trans (State.setCall_inner _ _)

theorem State.endDisposed_inner (s : State) (a : Attempt) (o : RecordOutcome) : Inner s (s.endDisposed a o) :=
  (State.endQuietly_inner _ _ _).trans (State.testEnding_inner _)

theorem State.closeLeg_inner (s : State) (p : CallbackPart) (o : Offer) (x : RecordOutcome) (e : Option EndReason) :
    Inner s (s.closeLeg p o x e) :=
  ((State.release_inner _ _).trans (.record _ _)).trans (State.mapPart_inner _ _)

theorem State.dropCallback_inner (s : State) (p : CallbackPart) (o : Offer) (c : Cause) : Inner s (s.dropCallback p o c) :=
  ((State.closeLeg_inner _ _ _ _ _).trans (State.setRoute_inner _ _)).trans (State.enterEnding_inner _)

theorem State.clearCallback_inner (s : State) (p : CallbackPart) (o : Offer) : Inner s (s.clearCallback p o) :=
  (State.closeLeg_inner _ _ _ _ _).trans (State.testEnding_inner _)

theorem State.unpinHeld_inner (s : State) (p : CallbackPart) : Inner s (s.unpinHeld p) := by
  unfold State.unpinHeld
  split
  · exact State.unpinSlot_inner _ _
  · exact .refl s

theorem State.loseHeld_inner (s : State) (p : CallbackPart) : Inner s (s.loseHeld p) :=
  ((State.unpinHeld_inner _ _).trans (State.mapPart_inner _ _)).trans (State.snoozeTest_inner _ _)

theorem State.endOtherOffer_inner (s : State) (p : CallbackPart) : Inner s (s.endOtherOffer p) := by
  unfold State.endOtherOffer
  split
  · exact .ite (fun _ => .refl s) fun _ => State.enqueue_inner _ _ _
  · exact .refl s

theorem State.endHold_inner (s : State) (p : CallbackPart) : Inner s (s.endHold p) := by
  unfold State.endHold
  split
  · exact State.enqueue_inner _ _ _
  · exact .refl s

theorem State.losePart_inner (s : State) (r : Radio) (c : Cause) : Inner s (s.losePart r c) := by
  unfold State.losePart
  split
  · exact .refl s
  · next p _ =>
    dsimp only
    have hleg : ∀ o : Offer, Inner s (State.testEnding (if s.isHeldRadio r then (s.dropCallback p o c).loseHeld p
        else s.dropCallback p o c)) := fun o =>
      Inner.trans (Inner.trans (State.dropCallback_inner s p o c) (.ite_self fun _ => State.loseHeld_inner _ _))
        (State.testEnding_inner _)
    split
    · exact .ite (fun _ => ((State.unpinHeld_inner _ _).trans (State.endOtherOffer_inner _ _)).trans
        (State.endPart_inner _)) fun _ => .ite_self fun _ => State.removeOffer_inner _
    all_goals first
      | exact .refl s
      | (split
         · exact .ite (fun _ => hleg _) fun _ => .ite_self fun _ => State.loseHeld_inner _ _
         · exact .ite_self fun _ => State.loseHeld_inner _ _)

theorem State.loseAttempt_inner (s : State) (a : Attempt) (c : Cause) : Inner s (s.loseAttempt a c) := by
  unfold State.loseAttempt
  split
  · exact .ite (fun _ => State.dropLeg_inner _ _ _) fun _ => State.failAttempt_inner _ _ _ _
  · exact State.endDisposed_inner _ _ _

theorem State.loseRadio_inner (s : State) (r : Radio) (c : Cause) : Inner s (s.loseRadio r c) :=
  State.handling_inner _ _ ((Inner.foldl _ (fun s a => State.loseAttempt_inner s a c) _ _).trans
    (State.losePart_inner _ _ _))

/-! ### The radio supervisor -/

theorem State.emptyQueue_inner (s : State) (r : Radio) : Inner s (s.emptyQueue r) :=
  (Inner.queue s r [] fun _ => List.nodup_nil).trans (.mapRadio _ _ _)

theorem State.recover_inner (s : State) (r : Radio) : Inner s (s.recover r) := by
  unfold State.recover
  split
  · exact State.enterReady_inner s r
  · exact ((((State.setRadioState_inner _ _ _).trans (State.emptyQueue_inner _ _)).trans
      (State.restartEntries_inner _ _)).trans (State.tellScheduler_inner _ _)).trans (State.snoozeTest_inner _ _)

/-- The silence timer of a working radio returns to 0 (R56). -/
theorem State.clearSilence_inner (s : State) (r : Radio) (h : (s.radio r).state.isWorking = true) :
    Inner s (s.clearSilence r) :=
  .context _ _ _ rfl fun hs => ⟨h.symm, hs.2⟩

theorem State.heard_inner (s : State) (r : Radio) : Inner s (s.heard r) := by
  unfold State.heard
  split
  all_goals first
    | exact .refl s
    | exact State.recover_inner s r
    | (next h => exact State.clearSilence_inner s r (by rw [h]; rfl))

theorem State.heardAnnounce_inner (s : State) (r : Radio) : Inner s (s.heardAnnounce r) :=
  .ite_self fun h => State.clearSilence_inner s r h

theorem State.fallSilent_inner (s : State) (r : Radio) : Inner s (s.fallSilent r) :=
  (((((State.setRadioState_inner s r .silent).trans (State.cutSurvey_inner _ _)).trans
    (State.removeSurvey_inner _ _)).trans (State.loseRadio_inner _ _ _)).trans (State.holdEntries_inner _ _)).trans
    (((State.setSilentHold_inner _ _ _).trans (State.post_inner _ _)).trans (State.snoozeTest_inner _ _))

theorem State.enterFault_inner (s : State) (r : Radio) : Inner s (s.enterFault r) :=
  ((((State.setRadioState_inner s r .fault).trans (State.loseRadio_inner _ _ _)).trans
    (State.emptyQueue_inner _ _)).trans ((((State.cutSurvey_inner _ _).trans (State.tellScheduler_inner _ _)).trans
    (State.leaveOwed_inner _ _)).trans (State.holdEntries_inner _ _))).trans
    ((State.post_inner _ _).trans (State.snoozeTest_inner _ _))

theorem State.restartContext_inner (s : State) (r : Radio) (g : List Nat) (n : Nat) :
    Inner s (s.restartContext r g n) :=
  ((((State.setRadioState_inner s r .starting).trans (State.loseRadio_inner _ _ _)).trans
    (State.emptyQueue_inner _ _)).trans ((((State.cutSurvey_inner _ _).trans (State.tellScheduler_inner _ _)).trans
    (State.joinOwed_inner _ _)).trans (State.restartEntries_inner _ _))).trans
    ((Inner.mapRadio _ _ _).trans (State.snoozeTest_inner _ _))

theorem State.moduleStatus_inner (s : State) (r : Radio) (a b : Bool) : Inner s (s.moduleStatus r a b) := by
  unfold State.moduleStatus
  split
  · exact .ite (fun _ => State.enterFault_inner _ _) fun _ => .ite_self fun _ =>
      (State.dueFromStart_inner _ _).trans (State.enterReady_inner _ _)
  all_goals first | exact .ite_self fun _ => State.enterFault_inner _ _ | exact .refl s

theorem State.attemptTaken_inner (s : State) (r : Radio) (n : Nat) : Inner s (s.attemptTaken r n) :=
  (Inner.mapRadio _ _ _).trans (State.mapAttempt_inner _ _ _ (fun a => by split <;> rfl) fun a => by split <;> rfl)

theorem State.surveyTaken_inner (s : State) (r : Radio) (w : Nat) (b : Bool) : Inner s (s.surveyTaken r w b) := by
  unfold State.surveyTaken
  split
  all_goals first
    | exact ((State.setRadioState_inner _ _ _).trans (State.setSurvey_inner _ _ _)).trans (State.snoozeTest_inner _ _)
    | (split
       all_goals first
         | exact (State.setSurvey_inner _ _ _).trans (State.surveyTest_inner _)
         | exact .refl s)

theorem State.loseRinging_inner (s : State) (r : Radio) : Inner s (s.loseRinging r) :=
  .ite_self fun _ => (State.enqueue_inner _ _ _).trans (State.removeOffer_inner _)

theorem State.snoozeTaken_inner (s : State) (r : Radio) : Inner s (s.snoozeTaken r) := by
  unfold State.snoozeTaken
  split
  all_goals first
    | exact .refl s
    | exact ((((State.setRadioState_inner _ _ _).trans (State.cutSurvey_inner _ _)).trans
        (State.tellScheduler_inner _ _)).trans (State.holdEntries_inner _ _)).trans
        (((State.loseRinging_inner _ _).trans (State.post_inner _ _)).trans (State.snoozeTest_inner _ _))

theorem State.wakeTaken_inner (s : State) (r : Radio) : Inner s (s.wakeTaken r) := by
  unfold State.wakeTaken
  split
  all_goals first
    | exact .refl s
    | exact ((State.setRadioState_inner _ _ _).trans (State.tellScheduler_inner _ _)).trans (State.snoozeTest_inner _ _)

theorem State.orderTaken_inner (s : State) (r : Radio) (o : Order) : Inner s (s.orderTaken r o) := by
  unfold State.orderTaken
  split
  · exact State.attemptTaken_inner _ _ _
  · exact .refl s
  · exact State.surveyTaken_inner _ _ _ _
  · exact State.snoozeTaken_inner _ _
  · exact State.wakeTaken_inner _ _
  · exact .refl s

theorem State.takeOrder_inner (s : State) (r : Radio) : Inner s (s.takeOrder r).1 := by
  unfold State.takeOrder
  split
  · exact .refl s
  · next o rest h =>
    refine Inner.trans (.queue s r rest fun hd => ?_) (State.orderTaken_inner _ _ _)
    rw [h] at hd
    exact (List.nodup_cons.1 hd).2

theorem State.takeTimeout_inner (s : State) (r : Radio) : Inner s (s.takeTimeout r) := by
  unfold State.takeTimeout
  dsimp only
  have h : Inner s ((s.dropOrders r .attempt).mapRadio r fun c => { c with take := none }) :=
    (State.dropOrders_inner s r .attempt).trans (.mapRadio _ r _)
  split
  · exact h.trans (State.handling_inner _ (fun t => t.failAttempt _ _ _) (State.failAttempt_inner _ _ _ _))
  · exact h

theorem State.takeReport_inner (s : State) (r : Radio) (x : RawReport) : Inner s (s.takeReport r x).1 := by
  unfold State.takeReport
  dsimp only
  have h : Inner s (match (checkReport (s.radio r).generations x).1 with
      | .passed c => s.meetTable r c
      | .dropped o => (s, o, false)).1 := by
    split
    · next c hc => exact State.meetTable_inner s r (checkReport_sound (x := x) (Prod.ext hc rfl))
    · exact .refl s
  refine Inner.trans (h.trans (.mapRadio _ r _)) (.ite_self fun _ => State.callEvent_inner _ _)

theorem State.takeReports_inner (s : State) (r : Radio) (l : List RawReport) : Inner s (s.takeReports r l).1 := by
  induction l generalizing s with
  | nil => exact .refl s
  | cons x rest ih => exact (State.takeReport_inner s r x).trans (ih _)

end Sys2Proof.Machine
end

