-- ==== Sys2Proof/Laws/Requests.lean ====
section
/-! SUPPORT. The requests and the events that stay within the blocks, each as a chain of `Inner` updates. -/

namespace Sys2Proof.Machine

variable {s t u : State}

/-! ### Notices -/

theorem State.takeNotice_inner (s : State) (p : Port) : Inner s (s.takeNotice p).1 := by
  unfold State.takeNotice
  split
  · exact .refl s
  · next k _ =>
    dsimp only
    split
    · exact .refl s
    · next h => exact .notice s p k false (by simpa using h)

/-! ### Requests of the radio ports -/

theorem State.announceRequest_inner (s : State) (r : Radio) (g : List Nat) (n : Nat) :
    Inner s (s.announceRequest r g n).1 := by
  unfold State.announceRequest
  split
  · exact State.restartContext_inner _ _ _ _
  · exact State.heardAnnounce_inner _ _

theorem State.moduleRequest_inner (s : State) (r : Radio) (a b : Nat) : Inner s (s.moduleRequest r a b).1 := by
  unfold State.moduleRequest
  split
  · exact State.moduleStatus_inner _ _ _ _
  · exact State.moduleStatus_inner _ _ _ _
  all_goals exact .refl s

theorem State.cellRequest_inner (s : State) (r : Radio) (n : Nat) (l : List RawReport) :
    Inner s (s.cellRequest r n l).1 := by
  unfold State.cellRequest
  split
  · split
    all_goals first | exact State.takeReports_inner _ _ _ | exact .refl s
  · exact .refl s

theorem State.attemptAccepted_inner (s : State) (a : Attempt) : Inner s (s.attemptAccepted a) :=
  State.mapAttempt_inner _ _ _

theorem State.attemptAlerting_inner (s : State) (a : Attempt) : Inner s (s.attemptAlerting a) :=
  (State.mapAttempt_inner _ _ _).trans (State.setStagger_inner _ _)

theorem State.reportTaken_inner (s : State) (a : Attempt) (x : Report) : Inner s (s.reportTaken a x) := by
  cases x
  · exact State.attemptAccepted_inner s a
  · exact State.attemptAlerting_inner s a
  · exact State.connectAttempt_inner s a
  · exact .refl s
  · exact State.failAttempt_inner s a _ _
  · exact State.dropLeg_inner s a _

theorem State.advanceDisposed_inner (s : State) (a : Attempt) (x : Report) (p : AttemptStep) :
    Inner s (s.advanceDisposed a x p).1 := by
  unfold State.advanceDisposed
  split
  · exact State.mapAttempt_inner _ _ _
  · exact .refl s

theorem State.progressAttempt_inner (s : State) (a : Attempt) (x : Report) : Inner s (s.progressAttempt a x).1 := by
  unfold State.progressAttempt
  split
  · unfold State.progressCancelled
    split
    · exact State.advanceDisposed_inner _ _ _ _
    · exact State.advanceDisposed_inner _ _ _ _
    · exact .refl s
    · split
      · exact .refl s
      · exact State.endDisposed_inner _ _ _
    · exact State.endDisposed_inner _ _ _
    · split
      · exact State.endDisposed_inner _ _ _
      · exact .refl s
  · unfold State.progressSurplus
    split
    · exact State.advanceDisposed_inner _ _ _ _
    · exact State.advanceDisposed_inner _ _ _ _
    · exact .refl s
    · exact State.endDisposed_inner _ _ _
    · exact State.endDisposed_inner _ _ _
    · exact .refl s
  · unfold State.progressWanted
    split
    · exact State.reportTaken_inner _ _ _
    · exact .refl s

theorem State.connectLeg_inner (s : State) (r : Radio) : Inner s (s.connectLeg r) := by
  unfold State.connectLeg
  dsimp only
  refine Inner.trans ?_ ((State.setRoute_inner _ _).trans (State.setCall_inner _ _))
  refine Inner.trans ?_ (State.mapPart_inner _ _)
  exact Inner.trans (.ite_self fun _ => State.finishSurvey_inner _ _) (State.enterCall_inner _ _ _)

theorem State.progressZero_inner (s : State) (r : Radio) (x : Report) : Inner s (s.progressZero r x).1 := by
  unfold State.progressZero
  split
  · split
    · split
      · unfold State.progressCallback
        split
        · unfold State.progressOffer
          split
          · exact State.removeOffer_inner _
          · exact State.removeOffer_inner _
          · split
            · exact State.connectLeg_inner _ _
            · exact .refl s
          all_goals exact .refl s
        · split
          · unfold State.progressLeg
            split
            · exact (State.dropCallback_inner _ _ _ _).trans (State.testEnding_inner _)
            all_goals exact .refl s
          · exact .refl s
        · split
          · unfold State.progressEndingLeg
            split
            all_goals first | exact State.clearCallback_inner _ _ _ | exact .refl s
          · exact .refl s
        all_goals exact .refl s
      · exact .refl s
    · exact .refl s
  · exact .refl s

theorem State.progressReport_inner (s : State) (r : Radio) (n : Nat) (x : Report) :
    Inner s (s.progressReport r n x).1 := by
  unfold State.progressReport
  split
  · exact State.progressZero_inner _ _ _
  · split
    · exact State.progressAttempt_inner _ _ _
    · exact .refl s

theorem State.progressRequest_inner (s : State) (r : Radio) (n k c : Nat) : Inner s (s.progressRequest r n k c).1 := by
  unfold State.progressRequest
  split
  · exact settle_inner s (State.progressReport_inner _ _ _ _)
  · exact .refl s

theorem State.surveyDoneRequest_inner (s : State) (r : Radio) : Inner s (s.surveyDoneRequest r).1 := by
  unfold State.surveyDoneRequest
  split
  · exact State.finishSurvey_inner _ _
  · exact .refl s

theorem State.recordOffer_inner (s : State) (r : Radio) : Inner s (s.recordOffer r) := by
  unfold State.recordOffer
  dsimp only
  refine Inner.trans ?_ (State.snoozeTest_inner _ _)
  exact Inner.trans ((State.mapPart_inner _ _).trans (State.post_inner _ _))
    (.ite_self fun _ => State.finishSurvey_inner _ _)

theorem State.incomingRequest_inner (s : State) (r : Radio) : Inner s (s.incomingRequest r).1 := by
  unfold State.incomingRequest
  split
  · split
    · exact .refl s
    · split
      · exact State.recordOffer_inner _ _
      · exact .refl s
  all_goals exact .refl s

/-! ### The station's requests on the call -/

theorem State.answerOffer_inner (s : State) (r : Radio) : Inner s (s.answerOffer r) :=
  (State.queueAnswer_inner _ _).trans (State.mapPart_inner _ _)

theorem State.endPartForCall_inner (s : State) (p : CallbackPart) : Inner s (s.endPartForCall p) :=
  (((State.endHold_inner _ _).trans (State.endOtherOffer_inner _ _)).trans (State.unpinHeld_inner _ _)).trans
    (.mapCall _ _)

theorem State.withdrawQueued_inner (s : State) (a : Attempt) : Inner s (s.withdrawQueued a) :=
  .ite_self fun _ => State.withdraw_inner _ _

theorem State.cancelAttempt_inner (s : State) (a : Attempt) : Inner s (s.cancelAttempt a) :=
  .ite_self fun _ => (State.mapAttempt_inner _ _ _).trans (State.enqueue_inner _ _ _)

theorem State.cancelAll_inner (s : State) : Inner s s.cancelAll :=
  (Inner.foldl _ State.withdrawQueued_inner _ _).trans (.foldl _ State.cancelAttempt_inner _ _)

theorem State.endCall_inner (s : State) : Inner s s.endCall := by
  refine State.handling_inner _ _ ?_
  dsimp only
  exact (((State.cancelAll_inner s).trans (.mapCall _ _)).trans (State.setStagger_inner _ _)).trans
    (((State.setRoute_inner _ _).trans (State.enterEnding_inner _)).trans (State.testEnding_inner _))

theorem State.endLeg_inner (s : State) (r : Radio) : Inner s (s.endLeg r) :=
  (((State.enqueue_inner _ _ _).trans (State.setRoute_inner _ _)).trans (State.enterEnding_inner _)).trans
    (State.testEnding_inner _)

theorem State.withdrawOffer_inner (s : State) (p : CallbackPart) (r : Radio) : Inner s (s.withdrawOffer p r) := by
  unfold State.withdrawOffer
  refine Inner.trans ?_ (State.removeOffer_inner _)
  split
  · split <;> exact State.enqueue_inner _ _ _
  · exact State.enqueue_inner _ _ _

theorem State.endRequest_inner (s : State) : Inner s s.endRequest.1 := by
  unfold State.endRequest
  split
  all_goals first
    | exact State.endCall_inner s
    | exact .refl s
    | skip
  · unfold State.endConnected
    split
    · exact State.endLeg_inner _ _
    · exact State.endCall_inner _
  · unfold State.endInCallback
    split
    · split
      all_goals first | exact State.withdrawOffer_inner _ _ _ | exact .refl s
    · exact .refl s

theorem State.answerRequest_inner (s : State) : Inner s s.answerRequest.1 := by
  unfold State.answerRequest
  split
  · split
    all_goals first | exact State.answerOffer_inner _ _ | exact .refl s
  all_goals first | exact .refl s | (split <;> exact .refl s)

/-! ### The survey mode -/

theorem State.modeRequest_inner (s : State) (m : Nat) : Inner s (s.modeRequest m).1 := by
  unfold State.modeRequest
  split
  · exact State.setSurveyMode_inner _ _
  · exact .refl s

/-! ### Events -/

theorem State.silenceExpired_inner (s : State) (r : Radio) : Inner s (s.silenceExpired r) :=
  .ite_self fun _ => State.fallSilent_inner _ _

theorem State.startExpired_inner (s : State) (r : Radio) : Inner s (s.startExpired r) :=
  .ite_self fun _ => State.enterFault_inner _ _

theorem State.takeExpired_inner (s : State) (r : Radio) : Inner s (s.takeExpired r) :=
  .ite_self fun _ => State.takeTimeout_inner _ _

theorem State.silentHoldExpired_inner (s : State) (r : Radio) : Inner s (s.silentHoldExpired r) :=
  .ite_self fun _ => State.silentHoldReached_inner _ _

theorem Entry.ageReached_keeps {l : Preferences} (p : Profile) (f : EntryState → Bool) (n : Nat) (e : Entry) :
    KeepsEntry l e (e.ageReached p f n) := by
  unfold Entry.ageReached
  split
  · have h : KeepsEntry l e (some { e with age := max e.age n }) := .of rfl fun h => { h with }
    exact h.bind fun e => e.thresholds_keeps p
  · exact .self l e

theorem State.fadeReached_inner (s : State) (i : Nat) : Inner s (s.fadeReached i) :=
  .mapSlot _ _ _ fun e => e.ageReached_keeps _ _ _

theorem State.lostReached_inner (s : State) (i : Nat) : Inner s (s.lostReached i) :=
  .mapSlot _ _ _ fun e => e.ageReached_keeps _ _ _

theorem State.releaseReached_inner (s : State) (i : Nat) : Inner s (s.releaseReached i) :=
  .mapSlot _ _ _ fun e => e.ageReached_keeps _ _ _

theorem State.exclusionExpired_inner (s : State) (i : Nat) : Inner s (s.exclusionExpired i) := by
  unfold State.exclusionExpired
  split
  · exact .ite_self fun _ => (Inner.mapSlot _ _ _ fun e => e.exclude_keeps none).trans (State.callEvent_inner _ _)
  · exact .refl s

theorem State.windowExpired_inner (s : State) (r : Radio) : Inner s (s.windowExpired r) :=
  .ite_self fun _ => State.finishSurvey_inner _ _

theorem State.ownPauseExpired_inner (s : State) (r : Radio) : Inner s (s.ownPauseExpired r) :=
  .ite_self fun _ => State.pauseExpired_inner _ _

theorem State.sharedExpired_inner (s : State) : Inner s s.sharedExpired :=
  .ite_self fun _ => State.sharedPauseExpired_inner _

theorem State.backoffExpired_inner (s : State) : Inner s s.backoffExpired :=
  .ite_self fun _ => State.handling_inner _ (fun s => (s.mapCall fun c => { c with backoff := none }).runSelection)
    ((Inner.mapCall _ _).trans (State.runSelection_inner _))

theorem State.giveUpAttempt_inner (s : State) (a : Attempt) : Inner s (s.giveUpAttempt a) := by
  unfold State.giveUpAttempt
  dsimp only
  have h := (((State.recordAttempt_inner s a .cleared (some .endingTimeout)).trans
    (State.removeAttempt_inner _ a.number)).trans (State.unpinSlot_inner _ a.slot)).trans (State.release_inner _ a.radio)
  exact .ite (fun _ => h) fun _ => h.trans (State.enqueue_inner _ _ _)

theorem State.giveUpLeg_inner (s : State) : Inner s s.giveUpLeg := by
  unfold State.giveUpLeg
  split
  · split
    · split
      · dsimp only
        have h := State.closeLeg_inner s ‹CallbackPart› ‹Offer› .cleared (some .endingTimeout)
        exact .ite (fun _ => h) fun _ => h.trans (State.enqueue_inner _ _ _)
      · exact .refl s
    · exact .refl s
  · exact .refl s

theorem State.endingExpired_inner (s : State) : Inner s s.endingExpired :=
  .ite_self fun _ => State.handling_inner _
    (fun s => ((s.call.attempts.foldl State.giveUpAttempt s).giveUpLeg).completeEnding .endingTimeout)
    (((Inner.foldl _ State.giveUpAttempt_inner _ _).trans (State.giveUpLeg_inner _)).trans
      (State.completeEnding_inner _ _))

theorem State.deadlineExpired_inner (s : State) (n : Nat) (d : Attempt → Option Nat) (c : Cause) :
    Inner s (s.deadlineExpired n d c) := by
  unfold State.deadlineExpired
  split
  · exact .ite_self fun _ => State.handling_inner _ (fun s => s.failAttempt _ c true) (State.failAttempt_inner _ _ _ _)
  · exact .refl s

theorem State.staggerExpired_inner (s : State) : Inner s s.staggerExpired := by
  unfold State.staggerExpired
  split
  · unfold State.staggerEnds
    split
    · exact State.secondWalk_inner _ _
    · exact State.setStagger_inner _ _
  all_goals exact .refl s

theorem State.callbackExpired_inner (s : State) : Inner s s.callbackExpired := by
  unfold State.callbackExpired
  split
  · refine .ite_self fun _ => ?_
    unfold State.windowRunsOut
    exact ((((State.endOtherOffer_inner _ _).trans (State.mapPart_inner _ _)).trans (State.endHold_inner _ _)).trans
      (State.unpinHeld_inner _ _)).trans (State.endPart_inner _)
  all_goals exact .refl s

end Sys2Proof.Machine
end

