-- ==== Sys2Proof/Laws/Blocks.lean ====
section
/-! SUPPORT. What a handling keeps whatever it does: the blocks stay sound, and the reset input, the queue of commands
and the running time are left.  One lemma for each handling that is more than a chain of `Inner` updates. -/

namespace Sys2Proof.Machine

/-- The blocks of a state are sound, the output lines apart. -/
structure State.BlocksSound (s : State) : Prop where
  table : s.TableSound
  timers : s.TimersSound
  queues : s.QueuesSound
  attempts : s.AttemptsSound
  journal : s.JournalSound

/-- The voice-route lines are as the route gives (R136). -/
def State.LinesFollow (s : State) : Prop :=
  s.call.lineA = (s.call.route == some .A) ∧ s.call.lineB = (s.call.route == some .B)

/-- What a handling that ends in `t` keeps. -/
structure Keeps (s t : State) : Prop where
  blocks : s.BlocksSound → t.BlocksSound
  lines : s.LinesFollow → t.LinesFollow
  reset : t.resetAsserted = s.resetAsserted
  pending : t.pending = s.pending
  clock : t.journal.clock = s.journal.clock

variable {s t u : State}

theorem Keeps.refl (s : State) : Keeps s s := ⟨id, id, rfl, rfl, rfl⟩

theorem Keeps.trans (h : Keeps s t) (k : Keeps t u) : Keeps s u :=
  ⟨k.blocks ∘ h.blocks, k.lines ∘ h.lines, k.reset.trans h.reset, k.pending.trans h.pending, k.clock.trans h.clock⟩

theorem Inner.keeps (h : Inner s t) : Keeps s t where
  blocks b := by
    refine ⟨⟨?_, h.slotsSound b.table.2⟩, h.timersSound b.timers, h.queuesSound b.queues, h.attemptsSound b.attempts,
      h.journalSound b.journal⟩
    rw [h.same.prefs]; exact b.table.1
  lines := h.lines
  reset := h.same.resetAsserted
  pending := h.same.pending
  clock := h.same.clock

theorem Keeps.ite {c : Prop} [Decidable c] (h : c → Keeps s t) (k : ¬c → Keeps s u) :
    Keeps s (if c then t else u) := by
  split
  · next e => exact h e
  · next e => exact k e

/-! ### Ports -/

/-- A change of a port that leaves its pending set. -/
theorem Keeps.mapPort (s : State) (p : Port) (f : PortState → PortState) (h : ∀ x, (f x).pending = x.pending) :
    Keeps s (s.mapPort p f) where
  blocks b := by
    refine ⟨?_, ?_, ?_, ?_, ?_⟩
    · simpa [State.TableSound] using b.table
    · intro r; rw [State.radio_mapPort]; exact b.timers r
    · intro r
      rw [State.radio_mapPort, State.port_mapPort]
      have := b.queues r
      split
      · rw [h]; exact this
      · exact this
    · simpa [State.AttemptsSound] using b.attempts
    · have hp := State.port_mapPort s p .station f
      simp only [State.port] at hp
      refine ⟨by simpa using b.journal.1, by simpa using b.journal.2.1, ?_⟩
      rw [hp]
      split
      · rw [h]; simpa using b.journal.2.2
      · simpa using b.journal.2.2
  lines b := by simpa [State.LinesFollow] using b
  reset := by simp
  pending := by simp
  clock := by simp

theorem State.respond_keeps (s : State) (p : Port) (r : Response) : Keeps s (s.respond p r) :=
  .mapPort s p _ fun _ => rfl

theorem State.followLines_keeps (s : State) : Keeps s s.followLines := by
  unfold State.followLines
  refine .ite (fun _ => .refl s) fun _ => ?_
  have hf : ∀ x : PortState, x.follow.pending = x.pending := fun x => by unfold PortState.follow; split <;> rfl
  refine ⟨fun b => ⟨b.table, b.timers, ?_, b.attempts, ⟨b.journal.1, b.journal.2.1, ?_⟩⟩, id, rfl, rfl, rfl⟩
  · intro r
    have := b.queues r
    cases r <;> exact ⟨this.1, by dsimp only [State.port]; rw [hf]; exact this.2⟩
  · show (s.ports.station.follow).pending.journal = _
    rw [hf]; exact b.journal.2.2

/-- A request handled within a period. -/
theorem State.answer_keeps (s : State) (p : Port) (h : Handler) (k : Keeps s (h s).1) : Keeps s (s.answer p h) :=
  k.trans (State.respond_keeps _ _ _)

theorem State.heard_keeps (s : State) (r : Radio) : Keeps s (s.heard r) := (State.heard_inner s r).keeps

/-- A request of a radio port, by what its handling keeps. -/
theorem onRadioPort_keeps (hear : Radio → State → State) (h : Radio → Handler) (r : Radio) (s : State)
    (k : Keeps s (hear r s)) (k' : Keeps s (h r s).1) : Keeps s (onRadioPort hear h r s).1 := by
  unfold onRadioPort
  split
  · exact k
  · exact k'

theorem announced_keeps (h : Radio → Handler) (r : Radio) (s : State) (k : ∀ s, Keeps s (h r s).1) :
    Keeps s (announced h r s).1 := by
  unfold announced
  split
  · exact .refl s
  · exact (State.heard_keeps s r).trans (k _)

/-- A period's handling of a request, by what the owners' handlings keep. -/
theorem request_keeps (s : State) (p : Port) (station : Handler) (radio : Radio → Handler)
    (hs : ∀ s, Keeps s (station s).1) (hr : ∀ r s, Keeps s (radio r s).1) :
    Keeps s (match p with
      | .station => s.answer p station
      | .radio r => s.answer p (onRadioPort (fun r s => s.heard r) radio r)) := by
  cases p with
  | station => exact State.answer_keeps _ _ _ (hs _)
  | radio r => exact State.answer_keeps _ _ _ (onRadioPort_keeps _ _ _ _ (State.heard_keeps _ _) (hr _ _))

/-! ### Link-check mode and soft reset -/

theorem State.setLinkCheck_keeps (s : State) (r : Radio) (v : Option Nat) : Keeps s (s.setLinkCheck r v) :=
  ⟨fun b => ⟨b.table, b.timers, b.queues, b.attempts, b.journal⟩, id, rfl, rfl, rfl⟩

theorem State.linkCheckRequest_keeps (s : State) (a b : Nat) : Keeps s (s.linkCheckRequest a b).1 := by
  unfold State.linkCheckRequest
  split
  · exact .refl s
  · split
    · exact State.setLinkCheck_keeps _ _ _
    · exact .refl s

/-- No slot of the initial table is occupied. -/
theorem slotAt_initial (i : Nat) : slotAt ReachTable.initial.slots i = none := by
  cases h : slotAt ReachTable.initial.slots i with
  | none => rfl
  | some e =>
    simp only [slotAt, ReachTable.initial, Vector.toList_replicate, List.getElem?_replicate] at h
    split at h <;> cases h

theorem slotsSound_initial (l : Preferences) : SlotsSound l ReachTable.initial.slots where
  entries i e h := by rw [slotAt_initial] at h; cases h
  keys i j e f h := by rw [slotAt_initial] at h; cases h

theorem timersSound_initial : RadioContext.initial.TimersSound := ⟨rfl, rfl⟩

theorem attemptsSound_initial : AttemptsSound [] 1 :=
  ⟨List.nodup_nil, List.nodup_nil, (fun _ h => nomatch h), (fun _ h => nomatch h), ⟨Nat.le_refl _, by omega⟩⟩

theorem State.softReset_keeps (s : State) : Keeps s s.softReset := by
  unfold State.softReset
  have h : Keeps s (({ s with
      table := ReachTable.initial
      radios := ⟨RadioContext.initial, RadioContext.initial⟩
      call := CallRecord.initial
      survey := s.survey.softReset s.profile
      linkCheck := ⟨none, none⟩
      ports := ⟨s.ports.station.softReset, s.ports.a.softReset, s.ports.b.softReset⟩ } : State).testJournal) := by
    refine ⟨fun b => ⟨⟨b.table.1, slotsSound_initial _⟩, ?_, ?_, attemptsSound_initial,
      ⟨b.journal.1, b.journal.2.1, rfl⟩⟩, fun _ => ⟨rfl, rfl⟩, rfl, rfl, rfl⟩
    · intro r; cases r <;> exact timersSound_initial
    · intro r; cases r <;> exact ⟨List.nodup_nil, rfl⟩
  refine h.trans ?_
  unfold State.postSoftReset
  exact (Inner.ite_self fun _ => State.post_inner _ _).keeps

theorem State.resetRequest_keeps (s : State) : Keeps s s.resetRequest.1 := by
  unfold State.resetRequest
  split
  · exact State.softReset_keeps s
  · exact .refl s

/-! ### CALL START -/

theorem State.prepareCall_keeps (s : State) : Keeps s s.prepareCall := by
  unfold State.prepareCall
  have h : Keeps s { s with linkCheck := ⟨none, none⟩ } :=
    ⟨fun b => ⟨b.table, b.timers, b.queues, b.attempts, b.journal⟩, id, rfl, rfl, rfl⟩
  exact h.trans ((State.snoozeTest_inner _ _).trans (.mapCall _ _)).keeps

theorem State.beginCall_keeps (s : State) : Keeps s s.beginCall := by
  unfold State.beginCall State.handling settle
  refine ((State.prepareCall_keeps s).trans (State.runSelection_inner _).keeps).trans ?_
  dsimp only
  exact ((Inner.ite_self fun _ => State.callEvent_inner _ _).trans
    (Inner.ite_self fun _ => State.callEvent_inner _ _)).keeps

theorem State.startRequest_keeps (s : State) : Keeps s s.startRequest.1 := by
  unfold State.startRequest
  split
  · exact State.beginCall_keeps s
  · unfold State.startInCallback
    split
    · split
      · exact (State.answerOffer_inner _ _).keeps
      · exact (State.endPartForCall_inner _ _).keeps.trans (State.beginCall_keeps _)
      · exact (State.endPartForCall_inner _ _).keeps.trans (State.beginCall_keeps _)
    · exact State.beginCall_keeps s
  all_goals exact .refl s

/-! ### The profile -/

theorem State.testSilence_inner (s : State) (r : Radio) : Inner s (s.testSilence r) := by
  unfold State.testSilence
  split
  · exact .ite_self fun _ => State.fallSilent_inner _ _
  · exact .refl s

theorem State.takeProfile_keeps (s : State) (p : Profile) : Keeps s (s.takeProfile p) := by
  unfold State.takeProfile
  dsimp only
  have h : Keeps s { s with
      profile := p
      survey := { s.survey with operatePreload := some p.operate, pausePreload := some p.pause } } :=
    ⟨fun b => ⟨b.table, b.timers, b.queues, b.attempts, b.journal⟩, id, rfl, rfl, rfl⟩
  refine Keeps.trans ?_ (((State.testSilentHold_inner _ _).trans (State.testSilentHold_inner _ _)).trans
    ((State.testSilence_inner _ _).trans (State.testSilence_inner _ _))).keeps
  refine Keeps.trans ?_ (Inner.timers _ _ 0).keeps
  refine Keeps.trans (h.trans (State.reform_inner s fun s => { s with
      profile := p
      survey := { s.survey with operatePreload := some p.operate, pausePreload := some p.pause } }).keeps) (Inner.keeps ?_)
  refine .mapTable _ _ fun e => ?_
  have hx := e.thresholds_keeps (l := (s.reform fun s => { s with
      profile := p
      survey := { s.survey with operatePreload := some p.operate, pausePreload := some p.pause } }).prefs)
    (s.reform fun s => { s with
      profile := p
      survey := { s.survey with operatePreload := some p.operate, pausePreload := some p.pause } }).profile
  rw [Option.map_eq_bind]
  refine hx.bind fun e => ?_
  dsimp only [Function.comp]
  split
  · exact .self _ e
  · exact .of (Entry.rescore_key _ _) Entry.Sound.rescore

theorem State.profileRequest_keeps (s : State) (f : ProfileFields) : Keeps s (s.profileRequest f).1 := by
  unfold State.profileRequest
  split
  · exact .refl s
  · split
    · exact State.takeProfile_keeps _ _
    · exact .refl s

/-! ### The preference list -/

/-- Finding a code that neither the old nor the new content of an index holds. -/
theorem find_set (l : List (Option Preference)) (i : Nat) (x : Option Preference) (n : Nat)
    (ho : ∀ c, l[i]? = some (some c) → c.code ≠ n) (hx : ∀ c, x = some c → c.code ≠ n) :
    ((l.set i x).filterMap id).find? (fun c => c.code == n) = (l.filterMap id).find? fun c => c.code == n := by
  induction l generalizing i with
  | nil => rfl
  | cons a rest ih =>
    cases i with
    | zero =>
      have h1 : ∀ y : Option Preference, (∀ c, y = some c → c.code ≠ n) →
          ((y :: rest).filterMap id).find? (fun c => c.code == n) = (rest.filterMap id).find? fun c => c.code == n := by
        intro y hy
        cases y with
        | none => rfl
        | some c =>
          have : (c.code == n) = false := by simpa using hy c rfl
          simp [this]
      rw [List.set_cons_zero, h1 x hx, h1 a fun c hc => ho c (by simp [hc])]
    | succ i =>
      have h := ih i (by simpa using ho)
      cases a with
      | none => simpa using h
      | some c => simp only [List.set_cons_succ, List.filterMap_cons_some (f := id) rfl, List.find?_cons, h]

/-- An index's content as the list holds it. -/
theorem Preferences.at_eq (l : Preferences) (i : Nat) (c : Preference) :
    l.at i = some c ↔ l.list.toList[i]? = some (some c) := by
  unfold Preferences.at
  cases l.list.toList[i]? with
  | none => simp
  | some y => simp

/-- A write leaves the tier of every code that stands neither in the old nor in the new content (R44, R45). -/
theorem tierOf_put (l : Preferences) (i : Nat) (x : Option Preference) (n : Nat)
    (ho : ∀ c, l.at i = some c → c.code ≠ n) (hx : ∀ c, x = some c → c.code ≠ n) :
    tierOf (l.put i x) n = tierOf l n := by
  unfold Preferences.put
  split
  · next h =>
    simp only [tierOf, Vector.toList_set]
    rw [find_set _ _ _ _ (fun c hc => ho c ((l.at_eq i c).2 hc)) hx]
  · rfl

theorem Preferences.at_put (l : Preferences) (i : Nat) (x : Option Preference) (h : i < 16) : (l.put i x).at i = x := by
  unfold Preferences.put Preferences.at
  rw [dif_pos h]
  simp [Vector.toList_set, h]

/-- A code whose tier a write changes is among its tier events (R46). -/
theorem tierChanges_mem (l : Preferences) (i : Nat) (x : Option Preference) (h : i < 16) (n : Nat)
    (hn : tierOf l n ≠ tierOf (l.put i x) n) : n ∈ (tierChanges l (l.put i x) i).map (·.code) := by
  have hm : (∃ c, l.at i = some c ∧ c.code = n) ∨ ∃ c, x = some c ∧ c.code = n := by
    by_contra hc
    push Not at hc
    exact hn (tierOf_put l i x n hc.1 hc.2).symm
  unfold tierChanges
  simp only [List.map_map, List.mem_map, List.mem_filter, List.mem_append, Function.comp]
  refine ⟨n, ⟨?_, by simpa using hn⟩, rfl⟩
  rw [Preferences.at_put l i x h]
  by_cases hb : ∃ c, l.at i = some c ∧ c.code = n
  · obtain ⟨c, hc, rfl⟩ := hb
    exact .inl (by simp [hc])
  · obtain ⟨c, rfl, rfl⟩ := hm.resolve_left hb
    refine .inr ⟨by simp, ?_⟩
    simp only [Bool.not_eq_true', ← Bool.not_eq_true, List.contains_iff_mem, List.mem_map, Option.mem_toList]
    exact fun ⟨d, hd, e⟩ => hb ⟨d, hd, e⟩

/-- Each tier event carries the tier that the list gives its code after the write (R46). -/
theorem tierChanges_tier (l m : Preferences) (i : Nat) : ∀ x ∈ tierChanges l m i, x.tier = tierOf m x.code := by
  unfold tierChanges
  intro x hx
  simp only [List.mem_map] at hx
  obtain ⟨c, -, rfl⟩ := hx
  rfl

/-- A tier event changes the tier and the score alone, and the score stays in range (R33, R46). -/
theorem Entry.setTier_eq (b : Biases) (e : Entry) (c t : Nat) :
    ∃ n, e.setTier b c t = { e with tier := if e.network = c then t else e.tier, score := n }
      ∧ (e.score ≤ 1023 → n ≤ 1023) := by
  unfold Entry.setTier
  by_cases h : e.network = c
  · by_cases k : e.tier = t
    · subst k h; exact ⟨e.score, by simp, id⟩
    · simp only [h, true_and, ne_eq, k, not_false_eq_true, if_true]
      unfold Entry.rescore
      split
      · exact ⟨_, rfl, fun _ => scoreOf_le _ _⟩
      · exact ⟨e.score, rfl, id⟩
  · exact ⟨e.score, by simp [h], id⟩

/-- The tier events of a write, each with the tier that `g` gives its code, change the tier and the score alone, and
bring the tier to `g`'s where one names the entry's code (R46). -/
theorem foldTiers (b : Biases) (g : Nat → Nat) (l : List Preference) (hl : ∀ x ∈ l, x.tier = g x.code) (e : Entry) :
    ∃ n, l.foldl (fun e x => e.setTier b x.code x.tier) e
        = { e with tier := if e.network ∈ l.map (·.code) then g e.network else e.tier, score := n }
      ∧ (e.score ≤ 1023 → n ≤ 1023) := by
  induction l generalizing e with
  | nil => exact ⟨e.score, by simp, id⟩
  | cons x rest ih =>
    obtain ⟨m, hm, hm'⟩ := Entry.setTier_eq b e x.code x.tier
    obtain ⟨n, hn, hn'⟩ := ih (fun y hy => hl y (by simp [hy])) (e.setTier b x.code x.tier)
    refine ⟨n, ?_, fun h => hn' (by rw [hm]; exact hm' h)⟩
    rw [List.foldl_cons, hn, hm]
    simp only [List.map_cons, List.mem_cons, hl x (by simp)]
    by_cases k : e.network = x.code
    · simp [k]
    · simp [k]

/-- The table meets the list as a write leaves it (R46). -/
theorem slotsSound_tierEvents (b : Biases) {l : Preferences} {t : Slots} (h : SlotsSound l t) (i : Nat)
    (x : Option Preference) (hi : i < 16) :
    SlotsSound (l.put i x) (mapEntries t fun e => some
      ((tierChanges l (l.put i x) i).foldl (fun e x => e.setTier b x.code x.tier) e)) := by
  have hf := fun e => foldTiers b (tierOf (l.put i x)) _ (tierChanges_tier l (l.put i x) i) e
  constructor
  · intro j e hj
    rw [slotAt_mapEntries] at hj
    cases hs : slotAt t j with
    | none => simp [hs] at hj
    | some d =>
      simp only [hs, Option.bind_some, Option.some.injEq] at hj
      have hd := h.entries j d hs
      obtain ⟨n, h1, h2⟩ := hf d
      rw [h1] at hj
      subst hj
      refine ⟨hd.network, hd.generation, hd.cell, hd.level, hd.quality, hd.reports, hd.credit, h2 hd.score, ?_⟩
      dsimp only
      split
      · rfl
      · next hm =>
        rw [hd.tier]
        by_contra hc
        exact hm (tierChanges_mem l i x hi _ hc)
  · intro j k e f hj hk hkey
    rw [slotAt_mapEntries] at hj hk
    cases hs : slotAt t j with
    | none => simp [hs] at hj
    | some d =>
      cases hs' : slotAt t k with
      | none => simp [hs'] at hk
      | some d' =>
        simp only [hs, hs', Option.bind_some, Option.some.injEq] at hj hk
        obtain ⟨n, h1, -⟩ := hf d
        obtain ⟨m, h2, -⟩ := hf d'
        rw [h1] at hj
        rw [h2] at hk
        subst hj hk
        exact h.keys j k d d' hs hs' hkey

/-- Two indices do not hold one code. -/
theorem codes_nodup (l : Preferences) :
    l.codes.Nodup ↔ ∀ (i j : Nat) (c d : Preference), l.list.toList[i]? = some (some c) → l.list.toList[j]? = some (some d) → i < j →
      c.code ≠ d.code := by
  unfold Preferences.codes List.Nodup
  rw [List.pairwise_map, List.pairwise_filterMap, List.pairwise_iff_getElem]
  constructor
  · intro h i j c d hi hj hij
    obtain ⟨hi', ei⟩ := List.getElem?_eq_some_iff.1 hi
    obtain ⟨hj', ej⟩ := List.getElem?_eq_some_iff.1 hj
    exact h i j hi' hj' hij c (by simp [ei]) d (by simp [ej])
  · intro h i j hi hj hij c hc d hd
    exact h i j c d (by rw [List.getElem?_eq_getElem hi]; simpa using hc)
      (by rw [List.getElem?_eq_getElem hj]; simpa using hd) hij

/-- No other index holds the code. -/
theorem Preferences.not_duplicate (l : Preferences) (i code : Nat) (h : l.duplicate i code = false) (j : Nat)
    (hj : j ≠ i) (c : Preference) (hc : l.list.toList[j]? = some (some c)) : c.code ≠ code := by
  unfold Preferences.duplicate at h
  rw [List.any_eq_false] at h
  obtain ⟨hlt, e⟩ := List.getElem?_eq_some_iff.1 hc
  have := h (some c, j) (by rw [List.mem_zipIdx_iff_getElem?]; exact hc)
  simpa [hj] using this

/-- A taken write keeps the list sound (R41, R43). -/
theorem Preferences.put_sound (l : Preferences) (i : Nat) (x : Option Preference) (h : l.Sound)
    (hd : ∀ c, x = some c → l.duplicate i c.code = false) (hr : ∀ c, x = some c → c.code ≤ 999999 ∧ c.tier ≤ 3) :
    (l.put i x).Sound := by
  unfold Preferences.put
  split
  · next hi =>
    constructor
    · rw [codes_nodup]
      intro j k c d hj hk hjk
      have hn := (codes_nodup l).1 h.distinct
      simp only [Vector.toList_set, List.getElem?_set] at hj hk
      by_cases ej : i = j
      · subst ej
        have ek : i ≠ k := by omega
        rw [if_neg ek] at hk
        simp only [if_true] at hj
        split at hj
        · simp only [Option.some.injEq] at hj
          exact fun e => l.not_duplicate i c.code (hd c hj) k (by omega) d hk e.symm
        · cases hj
      · rw [if_neg ej] at hj
        by_cases ek : i = k
        · subst ek
          simp only [if_true] at hk
          split at hk
          · simp only [Option.some.injEq] at hk
            exact l.not_duplicate i d.code (hd d hk) j (by omega) c hj
          · cases hk
        · rw [if_neg ek] at hk
          exact hn j k c d hj hk hjk
    · intro c hc
      simp only [Vector.toList_set, List.mem_filterMap, id_eq, exists_eq_right] at hc
      rcases List.mem_or_eq_of_mem_set hc with hm | hm
      · exact h.range c (by simpa using hm)
      · exact hr c hm.symm
  · exact h

theorem State.writeIndex_keeps (s : State) (i : Nat) (x : Option Preference) (hi : i < 16)
    (hd : ∀ c, x = some c → s.prefs.duplicate i c.code = false)
    (hr : ∀ c, x = some c → c.code ≤ 999999 ∧ c.tier ≤ 3) : Keeps s (s.writeIndex i x) := by
  unfold State.writeIndex State.tierEvents State.mapTable State.setSlots
  dsimp only
  refine Keeps.trans ?_ (Inner.noteTable _ (.refl _)).keeps
  exact ⟨fun b => ⟨⟨Preferences.put_sound _ _ _ b.table.1 hd hr, slotsSound_tierEvents _ b.table.2 i x hi⟩, b.timers,
    b.queues, b.attempts, b.journal⟩, id, rfl, rfl, rfl⟩

theorem State.writeRequest_keeps (s : State) (i e c t : Nat) : Keeps s (s.writeRequest i e c t).1 := by
  unfold State.writeRequest
  split
  · exact .refl s
  · split
    · exact .refl s
    · split
      · exact .refl s
      · split
        · exact State.writeIndex_keeps _ _ _ (by omega) (fun _ h => nomatch h) fun _ h => nomatch h
        · unfold State.writeCode
          split
          · exact .refl s
          · split
            · exact .refl s
            · next hc hdup =>
              refine State.writeIndex_keeps _ _ _ (by omega) ?_ ?_
              · rintro _ ⟨⟩; simpa using hdup
              · rintro _ ⟨⟩; exact ⟨by dsimp only; omega, by dsimp only; omega⟩

theorem State.lockRequest_keeps (s : State) (b d : Nat) : Keeps s (s.lockRequest b d).1 := by
  unfold State.lockRequest
  split
  · exact .refl s
  · exact .refl s
  · split
    · exact .refl s
    · exact ⟨fun b => ⟨⟨⟨b.table.1.distinct, b.table.1.range⟩, ⟨fun i e h =>
        let g := b.table.2.entries i e h
        ⟨g.network, g.generation, g.cell, g.level, g.quality, g.reports, g.credit, g.score, g.tier⟩, b.table.2.keys⟩⟩,
        b.timers, b.queues, b.attempts, b.journal⟩, id, rfl, rfl, rfl⟩

/-! ### The journal -/

theorem State.takeRecord_keeps (s : State) : Keeps s s.takeRecord.1 := by
  unfold State.takeRecord
  split
  · exact .refl s
  · next x rest h =>
    refine ⟨fun b => ⟨b.table, b.timers, fun r => by have := b.queues r; cases r <;> exact this, b.attempts,
      ⟨?_, b.journal.2.1, rfl⟩⟩, id, rfl, rfl, rfl⟩
    have := b.journal.1
    rw [h] at this
    refine ⟨by have := this.1; simp only [List.length_cons] at this; show rest.length ≤ 32; omega, ?_⟩
    intro y hy
    exact this.2 y (List.mem_of_mem_tail hy)

theorem State.markRequest_keeps (s : State) (m : Nat) : Keeps s (s.markRequest m).1 := by
  unfold State.markRequest
  split
  · next h =>
    exact ⟨fun b => ⟨b.table, b.timers, fun r => by have := b.queues r; cases r <;> exact this, b.attempts,
      ⟨b.journal.1, h, rfl⟩⟩, id, rfl, rfl, rfl⟩
  · exact .refl s

/-! ### Notices, supply lines and time -/

theorem State.enableNotices_keeps (s : State) (p : Port) (k : Nat) : Keeps s (s.enableNotices p k).1 := by
  unfold State.enableNotices
  split
  · exact .mapPort s p (fun x => { x with enabled := noticeSetOf k }) fun _ => rfl
  · exact .refl s

theorem State.setLine_keeps (s : State) (l : Line) (x : SupplyLine) : Keeps s (s.setLine l x) :=
  ⟨fun b => ⟨b.table, b.timers, b.queues, b.attempts, b.journal⟩, id, rfl, rfl, rfl⟩

theorem State.formCondition_keeps (s : State) : Keeps s s.formCondition := by
  unfold State.formCondition
  dsimp only
  refine .ite (fun _ => .refl s) fun _ => ?_
  have h : Keeps s { s with supply := { s.supply with condition := s.supply.formed } } :=
    ⟨fun b => ⟨b.table, b.timers, b.queues, b.attempts, b.journal⟩, id, rfl, rfl, rfl⟩
  refine (h.trans (State.reform_inner s fun s =>
    { s with supply := { s.supply with condition := s.supply.formed } }).keeps).trans ?_
  exact (((State.retainOnCondition_inner _ _).trans (State.staggerOnCondition_inner _ _)).trans
    ((State.snoozeTest_inner _ _).trans (State.post_inner _ _))).keeps

theorem State.qualifyExpired_keeps (s : State) (l : Line) : Keeps s (s.qualifyExpired l) := by
  unfold State.qualifyExpired State.qualify
  exact .ite (fun _ => (State.setLine_keeps _ _ _).trans (State.formCondition_keeps _)) fun _ => .refl s

end Sys2Proof.Machine
end

