-- ==== Sys2Proof/Laws/Exec.lean ====
section
/-! SUPPORT. What a select period, an event and a millisecond keep: a sound state stays sound, whatever handling within
them keeps. -/

namespace Sys2Proof.Machine

variable {s t : State}

/-! ### Soundness in parts -/

/-- The blocks of a sound state are sound. -/
theorem State.Sound.blocks (h : s.Sound) : s.BlocksSound := ⟨h.table, h.timers, h.queues, h.attempts, h.journal⟩

/-- The voice-route lines of a sound state follow the route while the reset input is deasserted (R136). -/
theorem State.Sound.follow (h : s.Sound) (r : s.resetAsserted = false) : s.LinesFollow := by
  have := h.lines
  unfold State.LinesSound at this
  rwa [if_neg (by simp [r])] at this

/-- Sound blocks and lines make a sound state. -/
theorem State.sound_of (b : s.BlocksSound) (l : s.LinesSound) (a : s.AttentionSound) : s.Sound :=
  ⟨b.table, b.timers, b.queues, b.attempts, l, b.journal, a⟩

theorem State.linesSound_of (r : s.resetAsserted = false) (l : s.LinesFollow) : s.LinesSound := by
  unfold State.LinesSound
  rwa [if_neg (by simp [r])]

/-! ### Attention lines (R173) -/

/-- A port that follows has its line as its sets say. -/
theorem PortState.follow_attention (x : PortState) :
    x.follow.selected = x.selected ∧ (x.selected = false → x.follow.attention = x.follow.nextNotice.isSome) := by
  unfold PortState.follow
  split
  · next h => exact ⟨rfl, fun k => absurd (h.symm.trans k) (by decide)⟩
  · exact ⟨rfl, fun _ => rfl⟩

/-- Once the lines have followed, they are sound. -/
theorem State.followLines_attention (s : State) (r : s.resetAsserted = false) : s.followLines.AttentionSound := by
  intro p
  have hr : s.followLines.resetAsserted = false := by rw [s.followLines_keeps.reset]; exact r
  rw [if_neg (by simp [hr])]
  have hp : s.followLines.port p = (s.port p).follow := by
    unfold State.followLines
    rw [if_neg (by simp [r])]
    rcases p with _ | (_ | _) <;> rfl
  rw [hp]
  intro hs
  exact (s.port p).follow_attention.2 ((s.port p).follow_attention.1 ▸ hs)

/-- A handling that ends with the lines following leaves a state whose blocks and lines are sound sound. -/
theorem Keeps.sound_of (k : Keeps s t) (h : s.BlocksSound) (l : s.LinesFollow) (r : s.resetAsserted = false) :
    t.followLines.Sound := by
  have k' := k.trans t.followLines_keeps
  have hr : t.resetAsserted = false := k.reset.trans r
  exact State.sound_of (k'.blocks h) (State.linesSound_of (k'.reset.trans r) (k'.lines l)) (t.followLines_attention hr)

/-- A handling that ends with the lines following leaves a sound state sound. -/
theorem Keeps.sound (k : Keeps s t) (h : s.Sound) (r : s.resetAsserted = false) : t.followLines.Sound :=
  k.sound_of h.blocks (h.follow r) r

/-! ### Select periods and events -/

/-- A change of a port that leaves its sets, its attention line and its select line, or selects it. -/
theorem State.mapPort_sound (s : State) (p : Port) (f : PortState → PortState) (h : s.Sound)
    (hp : ∀ x, (f x).pending = x.pending) (he : ∀ x, (f x).enabled = x.enabled)
    (ha : ∀ x, (f x).attention = x.attention)
    (hs : s.resetAsserted = false → ∀ x, (f x).selected = false → x.selected = false) : (s.mapPort p f).Sound := by
  have k := Keeps.mapPort s p f hp
  refine State.sound_of (k.blocks h.blocks) ?_ ?_
  · have := h.lines
    unfold State.LinesSound at this ⊢
    simpa using this
  · intro q
    have hq := h.attention q
    rw [State.port_mapPort]
    simp only [State.mapPort_resetAsserted]
    split
    · next hr =>
      rw [if_pos hr] at hq
      split
      · rw [ha]; exact hq
      · exact hq
    · next hr =>
      rw [if_neg hr] at hq
      split
      · intro hf
        have := hq (hs (by simpa using hr) _ hf)
        rw [ha, this]
        unfold PortState.nextNotice
        rw [hp, he]
      · exact hq

/-- A select period leaves a sound state sound, when its handling does its part (R163, R173, R176). -/
theorem State.period_sound (s : State) (p : Port) (f : State → State) (hf : ∀ s, Keeps s (f s)) (h : s.Sound) :
    (s.period p f).Sound := by
  unfold State.period
  by_cases r : s.resetAsserted = true
  · rw [if_pos r]
    exact s.mapPort_sound p _ h (fun _ => rfl) (fun _ => rfl) (fun _ => rfl) fun hr => absurd (r.symm.trans hr) (by decide)
  · rw [if_neg r]
    have r' : s.resetAsserted = false := by simpa using r
    split
    · exact (Keeps.mapPort s p PortState.deselect fun _ => rfl).sound h r'
    · exact ((Keeps.mapPort s p PortState.endPeriod fun _ => rfl).trans (hf _)).sound h r'

/-- An event leaves a sound state sound (R173, R176). -/
theorem State.event_sound (s : State) (f : State → State) (hf : ∀ s, Keeps s (f s)) (h : s.Sound) :
    (s.event f).Sound := by
  unfold State.event
  split
  · exact h
  · next r => exact (hf s).sound h (by simpa using r)

/-- A request leaves a sound state sound, when the owners' handlings do their part (R166). -/
theorem State.request_sound (s : State) (p : Port) (station : Handler) (radio : Radio → Handler)
    (hs : ∀ s, Keeps s (station s).1) (hr : ∀ r s, Keeps s (radio r s).1) (h : s.Sound) :
    (s.request p station radio).Sound :=
  s.period_sound p _ (fun t => request_keeps t p station radio hs hr) h

/-- A request of the station port alone leaves a sound state sound. -/
theorem State.stationRequest_sound (s : State) (p : Port) (f : Handler) (hf : ∀ s, Keeps s (f s).1) (h : s.Sound) :
    (s.stationRequest p f).Sound :=
  s.request_sound p f denied hf (fun r s => State.heard_keeps s r) h

/-- A request of the radio ports alone leaves a sound state sound. -/
theorem State.radioRequest_sound (s : State) (p : Port) (f : Radio → Handler) (hf : ∀ r s, Keeps s (f r s).1)
    (h : s.Sound) : (s.radioRequest p f).Sound :=
  s.request_sound p _ _ (fun s => .refl s) (fun r s => announced_keeps f r s (hf r)) h

/-! ### A millisecond -/

theorem State.advance_blocks (s : State) (b : s.BlocksSound) : s.advance.BlocksSound := by
  refine ⟨⟨b.table.1, ?_⟩, ?_, ?_, ?_, b.journal⟩
  · refine b.table.2.mapEntries fun e => ?_
    exact .of rfl fun h => { h with }
  · intro r
    have := b.timers r
    cases r <;> (obtain ⟨h1, h2⟩ := this; constructor)
    · show (tickTimer _).isSome = _
      unfold tickTimer; rw [Option.isSome_map]; exact h1
    · show (tickTimer _).isSome = _
      unfold tickTimer; rw [Option.isSome_map]; exact h2
    · show (tickTimer _).isSome = _
      unfold tickTimer; rw [Option.isSome_map]; exact h1
    · show (tickTimer _).isSome = _
      unfold tickTimer; rw [Option.isSome_map]; exact h2
  · intro r
    have := b.queues r
    cases r <;> exact this
  · exact AttemptsSound.map b.attempts Attempt.tick (fun _ => rfl) fun _ => rfl

theorem State.whenDue_keeps (s : State) (due : State → Bool) (f : State → State) (h : ∀ s, Keeps s (f s)) :
    Keeps s (s.whenDue due f) := .ite (fun _ => h s) fun _ => .refl s

theorem State.eachRadio_keeps (s : State) (due : Radio → State → Bool) (f : Radio → State → State)
    (h : ∀ r s, Keeps s (f r s)) : Keeps s (s.eachRadio due f) :=
  (s.whenDue_keeps _ _ (h .A)).trans (State.whenDue_keeps _ _ _ (h .B))

theorem Keeps.foldl {α : Type} (f : State → α → State) (h : ∀ s x, Keeps s (f s x)) (l : List α) (s : State) :
    Keeps s (l.foldl f s) := by
  induction l generalizing s with
  | nil => exact .refl s
  | cons x rest ih => exact (h s x).trans (ih _)

theorem State.tableDue_keeps (s : State) : Keeps s s.tableDue := by
  unfold State.tableDue
  dsimp only
  refine Keeps.trans ?_ (State.whenDue_keeps _ _ _ fun s => (State.relaxCredits_inner s).keeps)
  refine Keeps.trans ?_ (.foldl _ (fun s i => State.whenDue_keeps s _ _ fun s => (s.exclusionExpired_inner i).keeps) _ _)
  exact (((State.testAges_inner s).trans (State.testSilentHold_inner _ _)).trans (State.testSilentHold_inner _ _)).keeps

theorem State.radioDue_keeps (s : State) : Keeps s s.radioDue := by
  unfold State.radioDue
  dsimp only
  refine Keeps.trans ?_ (State.eachRadio_keeps _ _ _ fun r s => (s.takeExpired_inner r).keeps)
  refine Keeps.trans ?_ (State.eachRadio_keeps _ _ _ fun r s => (s.silenceExpired_inner r).keeps)
  refine Keeps.trans ?_ (State.eachRadio_keeps _ _ _ fun r s => (s.startExpired_inner r).keeps)
  refine Keeps.trans ?_ (State.eachRadio_keeps _ _ _ fun r s => s.setLinkCheck_keeps r none)
  exact (State.whenDue_keeps _ _ _ fun s => s.qualifyExpired_keeps .lowv).trans
    (State.whenDue_keeps _ _ _ fun s => s.qualifyExpired_keeps .critv)

theorem State.surveyDue_keeps (s : State) : Keeps s s.surveyDue := by
  unfold State.surveyDue
  dsimp only
  refine Keeps.trans ?_ (State.whenDue_keeps _ _ _ fun s => s.sharedExpired_inner.keeps)
  refine Keeps.trans ?_ (State.eachRadio_keeps _ _ _ fun r s => (s.ownPauseExpired_inner r).keeps)
  exact State.eachRadio_keeps _ _ _ fun r s => (s.windowExpired_inner r).keeps

theorem State.attemptDue_keeps (s : State) (n : Nat) : Keeps s (s.attemptDue n) :=
  (State.whenDue_keeps _ _ _ fun s => (s.deadlineExpired_inner n _ _).keeps).trans
    (State.whenDue_keeps _ _ _ fun s => (s.deadlineExpired_inner n _ _).keeps)

theorem State.callDue_keeps (s : State) : Keeps s s.callDue := by
  unfold State.callDue
  dsimp only
  refine Keeps.trans ?_ (State.whenDue_keeps _ _ _ fun s => s.callbackExpired_inner.keeps)
  refine Keeps.trans ?_ (State.whenDue_keeps _ _ _ fun s => s.staggerExpired_inner.keeps)
  refine Keeps.trans ?_ (.foldl _ State.attemptDue_keeps _ _)
  exact (State.whenDue_keeps _ _ _ fun s => s.backoffExpired_inner.keeps).trans
    (State.whenDue_keeps _ _ _ fun s => s.endingExpired_inner.keeps)

/-- What falls due in a millisecond keeps what every handling keeps. -/
theorem State.due_keeps (s : State) : Keeps s s.tableDue.radioDue.surveyDue.callDue :=
  ((s.tableDue_keeps.trans (State.radioDue_keeps _)).trans (State.surveyDue_keeps _)).trans (State.callDue_keeps _)

/-- A millisecond leaves a sound state sound. -/
theorem State.tick_sound (s : State) (h : s.Sound) : s.tick.Sound := by
  unfold State.tick State.event
  split
  · exact h
  · next r =>
    exact s.advance.due_keeps.sound_of (s.advance_blocks h.blocks) (h.follow (by simpa using r))
      (Bool.eq_false_iff.2 r)

end Sys2Proof.Machine
end

