-- ==== Sys2Proof/Laws/Ports.lean ====
section
/-! SUPPORT. What a select period comes to: the state in which a request is handled, the state after its answer, and each
sort of request as its owner's handling between the two. -/

namespace Sys2Proof.Machine

variable (s t : State)

/-! ### The state in which a request is handled -/

@[simp] theorem State.opened_table (p : Port) : (s.opened p).table = s.table := by simp [State.opened]
@[simp] theorem State.opened_prefs (p : Port) : (s.opened p).prefs = s.prefs := by simp [State.opened]
@[simp] theorem State.opened_radios (p : Port) : (s.opened p).radios = s.radios := by simp [State.opened]
@[simp] theorem State.opened_radio (p : Port) (r : Radio) : (s.opened p).radio r = s.radio r := by simp [State.opened]
@[simp] theorem State.opened_survey (p : Port) : (s.opened p).survey = s.survey := by simp [State.opened]
@[simp] theorem State.opened_call (p : Port) : (s.opened p).call = s.call := by simp [State.opened]
@[simp] theorem State.opened_journal (p : Port) : (s.opened p).journal = s.journal := by simp [State.opened]
@[simp] theorem State.opened_supply (p : Port) : (s.opened p).supply = s.supply := by simp [State.opened]
@[simp] theorem State.opened_profile (p : Port) : (s.opened p).profile = s.profile := by simp [State.opened]
@[simp] theorem State.opened_linkCheck (p : Port) : (s.opened p).linkCheck = s.linkCheck := by simp [State.opened]
@[simp] theorem State.opened_resetAsserted (p : Port) : (s.opened p).resetAsserted = s.resetAsserted := by
  simp [State.opened]
@[simp] theorem State.opened_pending (p : Port) : (s.opened p).pending = s.pending := by simp [State.opened]
@[simp] theorem State.opened_entry (p : Port) (i : Nat) : (s.opened p).entry i = s.entry i := by simp [State.entry]
@[simp] theorem State.opened_surveyOf (p : Port) (r : Radio) : (s.opened p).surveyOf r = s.surveyOf r := by
  simp [State.surveyOf]

theorem State.port_opened (p q : Port) : (s.opened p).port q = if q = p then (s.port q).endPeriod else s.port q := by
  simp [State.opened, State.port_mapPort]

/-! ### Attention lines -/

/-- Once the lines have followed, a port is as before but for its line (R173). -/
theorem State.port_followLines (h : s.resetAsserted = false) (q : Port) : s.followLines.port q = (s.port q).follow := by
  unfold State.followLines
  rw [if_neg (by simp [h])]
  rcases q with _ | (_ | _) <;> rfl

@[simp] theorem State.followLines_ports : { s.followLines with ports := s.ports } = s := by
  unfold State.followLines
  split <;> rfl

@[simp] theorem State.followLines_table : s.followLines.table = s.table := by unfold State.followLines; split <;> rfl
@[simp] theorem State.followLines_prefs : s.followLines.prefs = s.prefs := by unfold State.followLines; split <;> rfl
@[simp] theorem State.followLines_radios : s.followLines.radios = s.radios := by unfold State.followLines; split <;> rfl
@[simp] theorem State.followLines_radio (r : Radio) : s.followLines.radio r = s.radio r := by
  unfold State.followLines; split <;> rfl
@[simp] theorem State.followLines_survey : s.followLines.survey = s.survey := by unfold State.followLines; split <;> rfl
@[simp] theorem State.followLines_call : s.followLines.call = s.call := by unfold State.followLines; split <;> rfl
@[simp] theorem State.followLines_journal : s.followLines.journal = s.journal := by
  unfold State.followLines; split <;> rfl
@[simp] theorem State.followLines_supply : s.followLines.supply = s.supply := by unfold State.followLines; split <;> rfl
@[simp] theorem State.followLines_profile : s.followLines.profile = s.profile := by
  unfold State.followLines; split <;> rfl
@[simp] theorem State.followLines_linkCheck : s.followLines.linkCheck = s.linkCheck := by
  unfold State.followLines; split <;> rfl
@[simp] theorem State.followLines_resetAsserted : s.followLines.resetAsserted = s.resetAsserted := by
  unfold State.followLines; split <;> rfl
@[simp] theorem State.followLines_pending : s.followLines.pending = s.pending := by
  unfold State.followLines; split <;> rfl
@[simp] theorem State.followLines_entry (i : Nat) : s.followLines.entry i = s.entry i := by simp [State.entry]
@[simp] theorem State.followLines_surveyOf (r : Radio) : s.followLines.surveyOf r = s.surveyOf r := by
  simp [State.surveyOf]

/-- What the lines' following leaves of a port. -/
theorem State.followLines_port_sets (q : Port) :
    (s.followLines.port q).pending = (s.port q).pending ∧ (s.followLines.port q).enabled = (s.port q).enabled
      ∧ (s.followLines.port q).response = (s.port q).response ∧ (s.followLines.port q).selected = (s.port q).selected
      ∧ (s.followLines.port q).ignoring = (s.port q).ignoring
      ∧ (s.followLines.port q).shiftOut = (s.port q).shiftOut := by
  unfold State.followLines
  split
  · exact ⟨rfl, rfl, rfl, rfl, rfl, rfl⟩
  · have hf : ∀ x : PortState, x.follow.pending = x.pending ∧ x.follow.enabled = x.enabled
        ∧ x.follow.response = x.response ∧ x.follow.selected = x.selected ∧ x.follow.ignoring = x.ignoring
        ∧ x.follow.shiftOut = x.shiftOut := by
      intro x; unfold PortState.follow; split <;> exact ⟨rfl, rfl, rfl, rfl, rfl, rfl⟩
    rcases q with _ | (_ | _) <;> exact hf _

/-! ### The state after the answer -/

@[simp] theorem State.respond_fields (p : Port) (r : Response) : { s.respond p r with ports := s.ports } = s := by
  rcases p with _ | (_ | _) <;> rfl

@[simp] theorem State.answered_table (p : Port) (r : Response) : (s.answered p r).table = s.table := by
  simp [State.answered, State.respond]
@[simp] theorem State.answered_prefs (p : Port) (r : Response) : (s.answered p r).prefs = s.prefs := by
  simp [State.answered, State.respond]
@[simp] theorem State.answered_radios (p : Port) (r : Response) : (s.answered p r).radios = s.radios := by
  simp [State.answered, State.respond]
@[simp] theorem State.answered_radio (p : Port) (r : Response) (q : Radio) : (s.answered p r).radio q = s.radio q := by
  simp [State.answered, State.respond]
@[simp] theorem State.answered_survey (p : Port) (r : Response) : (s.answered p r).survey = s.survey := by
  simp [State.answered, State.respond]
@[simp] theorem State.answered_call (p : Port) (r : Response) : (s.answered p r).call = s.call := by
  simp [State.answered, State.respond]
@[simp] theorem State.answered_journal (p : Port) (r : Response) : (s.answered p r).journal = s.journal := by
  simp [State.answered, State.respond]
@[simp] theorem State.answered_supply (p : Port) (r : Response) : (s.answered p r).supply = s.supply := by
  simp [State.answered, State.respond]
@[simp] theorem State.answered_profile (p : Port) (r : Response) : (s.answered p r).profile = s.profile := by
  simp [State.answered, State.respond]
@[simp] theorem State.answered_linkCheck (p : Port) (r : Response) : (s.answered p r).linkCheck = s.linkCheck := by
  simp [State.answered, State.respond]
@[simp] theorem State.answered_resetAsserted (p : Port) (r : Response) :
    (s.answered p r).resetAsserted = s.resetAsserted := by simp [State.answered, State.respond]
@[simp] theorem State.answered_pending (p : Port) (r : Response) : (s.answered p r).pending = s.pending := by
  simp [State.answered, State.respond]
@[simp] theorem State.answered_entry (p : Port) (r : Response) (i : Nat) : (s.answered p r).entry i = s.entry i := by
  simp [State.entry]
@[simp] theorem State.answered_surveyOf (p : Port) (r : Response) (q : Radio) :
    (s.answered p r).surveyOf q = s.surveyOf q := by simp [State.surveyOf]

/-- What an answer leaves of the ports: the response is pending on its own port. -/
theorem State.answered_port (p q : Port) (r : Response) :
    ((s.answered p r).port q).response = (if q = p then some r else (s.port q).response)
      ∧ ((s.answered p r).port q).pending = (s.port q).pending ∧ ((s.answered p r).port q).enabled = (s.port q).enabled
      ∧ ((s.answered p r).port q).selected = (s.port q).selected
      ∧ ((s.answered p r).port q).ignoring = (s.port q).ignoring
      ∧ ((s.answered p r).port q).shiftOut = (s.port q).shiftOut := by
  have h := (s.respond p r).followLines_port_sets q
  unfold State.answered
  rw [h.1, h.2.1, h.2.2.1, h.2.2.2.1, h.2.2.2.2.1, h.2.2.2.2.2]
  unfold State.respond
  rw [State.port_mapPort]
  split <;> exact ⟨rfl, rfl, rfl, rfl, rfl, rfl⟩

theorem State.answered_response (p : Port) (r : Response) : ((s.answered p r).port p).response = some r := by
  rw [(s.answered_port p p r).1, if_pos rfl]

/-! ### Periods and requests -/

variable {s}

/-- The end of a select period that is judged. -/
theorem State.period_listens {p : Port} (h : s.Listens p) (f : State → State) :
    s.period p f = (f (s.opened p)).followLines := by
  unfold State.period State.opened
  rw [if_neg (by simp [h.1]), if_neg (by simp [h.2])]

/-- A request from the station port. -/
theorem State.request_station (h : s.Listens .station) (station : Handler) (radio : Radio → Handler) :
    s.request .station station radio
      = ((station (s.opened .station)).1).answered .station (station (s.opened .station)).2 :=
  State.period_listens h _

theorem State.stationRequest_station (h : s.Listens .station) (f : Handler) :
    s.stationRequest .station f = ((f (s.opened .station)).1).answered .station (f (s.opened .station)).2 :=
  State.request_station h _ _

/-- A request from a radio port outside link-check mode. -/
theorem State.request_radio {r : Radio} (h : s.Listens (.radio r)) (hl : s.linkCheck.get r = none) (station : Handler)
    (radio : Radio → Handler) :
    s.request (.radio r) station radio
      = ((radio r (s.opened (.radio r))).1).answered (.radio r) (radio r (s.opened (.radio r))).2 := by
  unfold State.request
  rw [State.period_listens h]
  unfold State.answer onRadioPort
  simp [hl, State.answered]

/-- A request from a radio port in link-check mode. -/
theorem State.request_pattern {r : Radio} (h : s.Listens (.radio r)) (hl : (s.linkCheck.get r).isSome = true)
    (station : Handler) (radio : Radio → Handler) :
    s.request (.radio r) station radio = (s.heardOn r).answered (.radio r) ⟨.pattern, .patternBytes⟩ := by
  unfold State.request
  rw [State.period_listens h]
  unfold State.answer onRadioPort
  simp [hl, State.answered, State.heardOn, patternResponse]

/-- A request that reaches its owner from a radio port. -/
theorem State.request_speaks {r : Radio} (h : s.Speaks r) (station : Handler) (f : Radio → Handler) :
    s.request (.radio r) station (announced f)
      = ((f r (s.heardOn r)).1).answered (.radio r) (f r (s.heardOn r)).2 := by
  rw [State.request_radio h.1 h.2.1]
  unfold announced State.heardOn
  simp [h.2.2]

theorem State.radioRequest_speaks {r : Radio} (h : s.Speaks r) (f : Radio → Handler) :
    s.radioRequest (.radio r) f = ((f r (s.heardOn r)).1).answered (.radio r) (f r (s.heardOn r)).2 :=
  State.request_speaks h _ _

/-- An event while the reset input is deasserted. -/
theorem State.event_eq (h : s.resetAsserted = false) (f : State → State) : s.event f = (f s).followLines := by
  unfold State.event
  rw [if_neg (by simp [h])]

/-- The outcome of a station request, once its handling is known. -/
theorem State.next_station (h : s.Listens .station) {f : Handler} {t : State} {r : Response}
    (e : f (s.opened .station) = (t, r)) :
    (.next (s.stationRequest .station f) : Host.Outcome State Fault Refusal) = .next (t.answered .station r) := by
  rw [State.stationRequest_station h, e]

/-- The outcome of a radio's request, once its handling is known. -/
theorem State.next_radio {r : Radio} (h : s.Speaks r) {f : Radio → Handler} {t : State} {x : Response}
    (e : f r (s.heardOn r) = (t, x)) :
    (.next (s.radioRequest (.radio r) f) : Host.Outcome State Fault Refusal) = .next (t.answered (.radio r) x) := by
  rw [State.radioRequest_speaks h, e]

/-- The outcome of a request of every port, once its handling is known. -/
theorem State.next_hands {h : State} {p : Port} (hh : s.Hands p h) {f : Handler} {t : State} {r : Response}
    (e : f h = (t, r)) :
    (.next (s.request p f (announced fun _ => f)) : Host.Outcome State Fault Refusal) = .next (t.answered p r) := by
  rcases p with _ | q
  · obtain ⟨h1, rfl⟩ := hh
    rw [State.request_station h1, e]
  · obtain ⟨h1, rfl⟩ := hh
    rw [State.request_speaks h1, e]

/-- The outcome of an event while the reset input is deasserted. -/
theorem State.next_event (h : s.resetAsserted = false) {f : State → State} {t : State} (e : f s = t) :
    (.next (s.event f) : Host.Outcome State Fault Refusal) = .next t.followLines := by
  rw [State.event_eq h, e]

end Sys2Proof.Machine
end

