-- ==== Sys2Proof/Laws/Closed.lean ====
section
/-! SUPPORT. A relation between states that every `Inner` update and every change of a port keeps holds across every command
but the fourteen that change what `Inner` updates leave. -/

namespace Sys2Proof.Machine

/-- A reflexive and transitive relation that holds across every inner update, every change of a port that leaves its two
sets, and the following of the attention lines. -/
structure Closed (R : State → State → Prop) : Prop where
  refl : ∀ s, R s s
  trans : ∀ {s t u}, R s t → R t u → R s u
  inner : ∀ {s t}, Inner s t → R s t
  port : ∀ s p f, (∀ x : PortState, (f x).pending = x.pending ∧ (f x).enabled = x.enabled) → R s (State.mapPort s p f)
  follow : ∀ s : State, R s s.followLines

/-- The commands that are more than inner updates within a period or an event. -/
def isOwnersCommand : Instr → Bool
  | .powerOnReset | .setNoticeEnables _ _ | .setProfile _ _ | .writePreference _ _ _ _ _ | .lockPreferences _ _ _
  | .supplyLineChange _ _ | .qualifyingTimerExpiry _ | .takeJournal _ | .setJournalMark _ _ | .linkCheck _ _ _
  | .linkCheckTimerExpiry _ | .callStart _ | .resetPart _ | .resetInputAsserted => true
  | _ => false

namespace Closed

variable {R : State → State → Prop} (c : Closed R)
include c

theorem period (s : State) (p : Port) (f : State → State) (hf : ∀ s, R s (f s)) : R s (s.period p f) := by
  unfold State.period
  split
  · exact c.port s p PortState.deselect fun _ => ⟨rfl, rfl⟩
  · split
    · exact c.trans (c.port s p PortState.deselect fun _ => ⟨rfl, rfl⟩) (c.follow _)
    · exact c.trans (c.trans (c.port s p PortState.endPeriod fun _ => ⟨rfl, rfl⟩) (hf _)) (c.follow _)

theorem respond (s : State) (p : Port) (r : Response) : R s (s.respond p r) := c.port s p _ fun _ => ⟨rfl, rfl⟩

theorem answer (s : State) (p : Port) (h : Handler) (k : R s (h s).1) : R s (s.answer p h) :=
  c.trans k (c.respond _ _ _)

theorem heard (s : State) (r : Radio) : R s (s.heard r) := c.inner (s.heard_inner r)

omit c in
theorem onRadioPort (hear : Radio → State → State) (h : Radio → Handler) (r : Radio) (s : State)
    (k : R s (hear r s)) (k' : R s (h r s).1) : R s (onRadioPort hear h r s).1 := by
  unfold Machine.onRadioPort
  split
  · exact k
  · exact k'

theorem announced (h : Radio → Handler) (r : Radio) (s : State) (k : ∀ s, R s (h r s).1) : R s (announced h r s).1 := by
  unfold Machine.announced
  split
  · exact c.refl s
  · exact c.trans (c.heard s r) (k _)

theorem request (s : State) (p : Port) (station : Handler) (radio : Radio → Handler)
    (hs : ∀ s, R s (station s).1) (hr : ∀ r s, R s (radio r s).1) : R s (s.request p station radio) := by
  refine c.period s p _ fun t => ?_
  cases p with
  | station => exact c.answer _ _ _ (hs _)
  | radio r => exact c.answer _ _ _ (Closed.onRadioPort (R := R) _ _ _ _ (c.heard _ _) (hr _ _))

theorem stationRequest (s : State) (p : Port) (f : Handler) (hf : ∀ s, R s (f s).1) : R s (s.stationRequest p f) :=
  c.request s p f denied hf fun r s => c.heard s r

theorem radioRequest (s : State) (p : Port) (f : Radio → Handler) (hf : ∀ r s, R s (f r s).1) :
    R s (s.radioRequest p f) :=
  c.request s p _ _ (fun s => c.refl s) fun r s => c.announced f r s (hf r)

theorem event (s : State) (f : State → State) (hf : ∀ s, R s (f s)) : R s (s.event f) := by
  unfold State.event
  split
  · exact c.refl s
  · exact c.trans (hf s) (c.follow _)

/-- The relation holds across every command that is inner updates within a period or an event. -/
theorem exec (i : Instr) (hi : isOwnersCommand i = false) (s t : State) (h : exec i s = .next t) : R s t := by
  cases i <;> first | exact Bool.noConfusion hi | (simp only [Machine.exec] at h; injection h with h; subst h)
  case selectAssert p =>
    exact c.port s p _ fun x => by unfold PortState.assert; split <;> exact ⟨rfl, rfl⟩
  case emptySelectPeriod p => exact c.period _ p id fun s => c.refl s
  case frameError p => exact c.period s p _ fun s => c.respond _ _ _
  case unknownRequest p => exact c.period s p _ fun s => c.respond _ _ _
  case noOp p => exact c.request s p _ _ (fun s => c.refl s) fun r s => c.announced _ _ _ fun s => c.refl s
  case readNotice p =>
    exact c.request s p _ _ (fun s => c.inner (s.takeNotice_inner p)) fun r s =>
      c.announced _ _ _ fun s => c.inner (s.takeNotice_inner p)
  case readRanked p _ _ _ => exact c.request s p _ _ (fun s => c.refl s) fun r s => c.announced _ _ _ fun s => c.refl s
  case announce p g n =>
    refine c.period s p _ fun s => ?_
    cases p with
    | station => exact c.answer _ _ _ (c.refl s)
    | radio r =>
      exact c.answer _ _ _ (Closed.onRadioPort (R := R) _ _ _ _ (c.inner (s.heardAnnounce_inner r)) (c.inner (s.announceRequest_inner r g n)))
  case moduleStatus p a b => exact c.radioRequest s p _ fun r s => c.inner (s.moduleRequest_inner r a b)
  case cellReport p n l => exact c.radioRequest s p _ fun r s => c.inner (s.cellRequest_inner r n l)
  case takeOrder p => exact c.radioRequest s p _ fun r s => c.inner (s.takeOrder_inner r)
  case progress p a b d => exact c.radioRequest s p _ fun r s => c.inner (s.progressRequest_inner r a b d)
  case surveyDone p => exact c.radioRequest s p _ fun r s => c.inner (s.surveyDoneRequest_inner r)
  case incoming p => exact c.radioRequest s p _ fun r s => c.inner (s.incomingRequest_inner r)
  case callEnd p => exact c.stationRequest s p _ fun s => c.inner s.endRequest_inner
  case answer p => exact c.stationRequest s p _ fun s => c.inner s.answerRequest_inner
  case readCall p => exact c.stationRequest s p _ fun s => c.refl s
  case readProfile p => exact c.stationRequest s p _ fun s => c.refl s
  case readPreference p _ => exact c.stationRequest s p _ fun s => c.refl s
  case setSurveyMode p a => exact c.stationRequest s p _ fun s => c.inner (s.modeRequest_inner a)
  case readEntry p _ => exact c.stationRequest s p _ fun s => c.refl s
  case readRadio p _ => exact c.stationRequest s p _ fun s => c.refl s
  case readStatus p => exact c.stationRequest s p _ fun s => c.refl s
  case silenceTimerExpiry r => exact c.event s _ fun s => c.inner (s.silenceExpired_inner r)
  case startTimerExpiry r => exact c.event s _ fun s => c.inner (s.startExpired_inner r)
  case takeDeadlineExpiry r => exact c.event s _ fun s => c.inner (s.takeExpired_inner r)
  case silentHoldExpiry r => exact c.event s _ fun s => c.inner (s.silentHoldExpired_inner r)
  case fadeTimeReached i => exact c.event s _ fun s => c.inner (s.fadeReached_inner i)
  case lostTimeReached i => exact c.event s _ fun s => c.inner (s.lostReached_inner i)
  case entryRelease i => exact c.event s _ fun s => c.inner (s.releaseReached_inner i)
  case exclusionExpiry i => exact c.event s _ fun s => c.inner (s.exclusionExpired_inner i)
  case creditRelaxExpiry => exact c.event s _ fun s => c.inner s.relaxCredits_inner
  case windowTimerExpiry r => exact c.event s _ fun s => c.inner (s.windowExpired_inner r)
  case pauseExpiry r => exact c.event s _ fun s => c.inner (s.ownPauseExpired_inner r)
  case sharedPauseExpiry => exact c.event s _ fun s => c.inner s.sharedExpired_inner
  case backoffExpiry => exact c.event s _ fun s => c.inner s.backoffExpired_inner
  case endingTimerExpiry => exact c.event s _ fun s => c.inner s.endingExpired_inner
  case setupDeadlineExpiry n => exact c.event s _ fun s => c.inner (s.deadlineExpired_inner n _ _)
  case answerDeadlineExpiry n => exact c.event s _ fun s => c.inner (s.deadlineExpired_inner n _ _)
  case staggerTimerExpiry => exact c.event s _ fun s => c.inner s.staggerExpired_inner
  case callbackWindowExpiry => exact c.event s _ fun s => c.inner s.callbackExpired_inner

end Closed

end Sys2Proof.Machine
end

