-- ==== Sys2Proof/Laws/Facts.lean ====
section
/-! SUPPORT. What the shared operations of the reach table and the survey scheduler leave where they do change the state:
the entries after a pass over the table, the TABLE notice, the survey states and the scheduler's other fields. -/

namespace Sys2Proof.Machine

/-! ### The reach table -/

/-- The TABLE notice changes the ports alone. -/
theorem noteTable_rest (b u : State) : { noteTable b u with ports := u.ports } = u := by
  unfold noteTable; split <;> rfl

theorem noteTable_available (b u : State) : (noteTable b u).available = u.available := by
  unfold noteTable; split <;> rfl

/-- TABLE is posted exactly when the available count has passed between 0 and above 0 (R20). -/
theorem noteTable_ports (b u : State) :
    ((noteTable b u).port .station).pending.table
        = ((u.port .station).pending.table || (decide (b.available = 0) != decide (u.available = 0)))
      ∧ ∀ p k, p ≠ .station ∨ k ≠ .table → ((noteTable b u).port p).pending.has k = (u.port p).pending.has k := by
  unfold noteTable
  have e : ((b.available == 0) == (u.available == 0)) = true ↔ decide (b.available = 0) = decide (u.available = 0) := by
    rw [beq_iff_eq]; rfl
  split
  · rename_i h
    rw [e] at h; rw [h]; simp
  · rename_i h
    rw [e] at h
    refine ⟨?_, fun p k hk => ?_⟩
    · rw [State.port_post]; simp [NoticeSet.put, h]
    · rw [State.port_post]; split
      · rename_i hp; dsimp only; rw [NoticeSet.has_put, if_neg]; exact hk.resolve_left (by simp [hp])
      · rfl

/-- A pass over the table maps every entry, and changes nothing else but the TABLE notice. -/
theorem mapTable_facts (s : State) (f : Entry → Option Entry) :
    (∀ i, (s.mapTable f).entry i = (s.entry i).bind f)
      ∧ { s.mapTable f with table := s.table, ports := s.ports } = s
      ∧ { (s.mapTable f).table with slots := s.table.slots } = s.table := by
  unfold State.mapTable State.setSlots
  refine ⟨fun i => ?_, ?_, ?_⟩
  · show slotAt _ i = _
    rw [(noteTable_quiet _ _).table]; exact slotAt_mapEntries _ _ _
  · unfold noteTable; split <;> rfl
  · rw [(noteTable_quiet _ _).table]

/-- A change of one slot gives that slot its new content, and changes nothing else but the TABLE notice. -/
theorem mapSlot_facts (s : State) (i : Nat) (f : Entry → Option Entry) (e : Entry) (he : s.entry i = some e) :
    (s.mapSlot i f).entry i = f e ∧ (∀ j, j ≠ i → (s.mapSlot i f).entry j = s.entry j)
      ∧ { s.mapSlot i f with table := s.table, ports := s.ports } = s
      ∧ { (s.mapSlot i f).table with slots := s.table.slots } = s.table
      ∧ ((s.mapSlot i f).port .station).pending.table
          = ((s.port .station).pending.table || (decide (s.available = 0) != decide ((s.mapSlot i f).available = 0)))
      ∧ ∀ p k, p ≠ .station ∨ k ≠ .table → ((s.mapSlot i f).port p).pending.has k = (s.port p).pending.has k := by
  unfold State.mapSlot
  rw [he]
  dsimp only
  unfold State.setSlots
  have hi := lt_of_slotAt he
  refine ⟨?_, fun j hj => ?_, ?_, ?_, ?_, ?_⟩
  · show slotAt _ i = _
    rw [(noteTable_quiet _ _).table]; rw [slotAt_putSlot, if_pos ⟨rfl, hi⟩]
  · show slotAt _ j = _
    rw [(noteTable_quiet _ _).table]; rw [slotAt_putSlot, if_neg (by simp [hj])]; rfl
  · unfold noteTable; split <;> rfl
  · rw [(noteTable_quiet _ _).table]
  · rw [(noteTable_ports _ _).1, noteTable_available]; rfl
  · intro p k hk; rw [(noteTable_ports _ _).2 p k hk]; rfl

theorem putSlot_same (t : Slots) (i : Nat) (e : Entry) (h : slotAt t i = some e) : putSlot t i (some e) = t := by
  have hi := lt_of_slotAt h
  unfold putSlot
  rw [dif_pos hi]
  unfold slotAt at h
  rw [List.getElem?_eq_getElem (by simpa using hi)] at h
  simp at h
  rw [← h]; simp

/-- A change of a slot to what it holds changes nothing. -/
theorem mapSlot_same (s : State) (i : Nat) (f : Entry → Option Entry) (h : ∀ e, s.entry i = some e → f e = some e) :
    s.mapSlot i f = s := by
  unfold State.mapSlot
  split
  · rename_i e he
    rw [h e he]
    unfold State.setSlots
    rw [putSlot_same _ _ _ he]
    unfold noteTable
    simp
  · rfl

/-- An unpinned entry that becomes LOST and is compared with the thresholds is LOST with at least the lost time as its age,
or freed from four times the lost time on (R6, R7, R12). -/
theorem becomeLost_thresholds (p : Profile) (e : Entry) (hp : e.pin = false) (h0 : 0 < p.lost) :
    (e.becomeLost p).thresholds p = if e.age < 4 * (p.lost * 1000) then
      some { e with state := .lost, age := max e.age (p.lost * 1000) } else none := by
  unfold Entry.thresholds
  have : ∀ y : Entry, y.state = .lost → y.fadeStep p = y := by
    intro y hy; unfold Entry.fadeStep; split <;> simp [hy]
  rw [this _ rfl]
  have : ∀ y : Entry, y.state = .lost → y.lostStep p = y := by
    intro y hy; unfold Entry.lostStep; split <;> simp [hy]
  rw [this _ rfl]
  unfold Entry.becomeLost Entry.releaseStep Profile.releaseMs Profile.lostMs
  dsimp only
  by_cases h : e.age < 4 * (p.lost * 1000)
  · rw [if_pos (by simp; right; omega), if_pos h]
  · rw [if_neg (by simp [hp]; omega), if_neg h]

/-! ### The survey scheduler -/

theorem surveyOf_of {s t : State} (h : t.survey = s.survey) (r : Radio) : t.surveyOf r = s.surveyOf r := by
  unfold State.surveyOf; rw [h]

theorem enqueue_survey (s : State) (r : Radio) (o : Order) : (s.enqueue r o).survey = s.survey := by
  unfold State.enqueue; split <;> simp

theorem dropOrders_survey (s : State) (r : Radio) (k : OrderKind) : (s.dropOrders r k).survey = s.survey := by
  unfold State.dropOrders; simp

/-- Setting a radio's survey state sets that one alone. -/
theorem setSurvey_surveyOf (s : State) (r : Radio) (v : SurveyState) (q : Radio) :
    (s.setSurvey r v).surveyOf q = if q = r then v else s.surveyOf q := by
  unfold State.setSurvey State.surveyOf
  simp only [State.mapSurvey_survey]
  have : ∀ c : Scheduler, c.trimShared.states = c.states := fun c => by unfold Scheduler.trimShared; split <;> rfl
  rw [this]; exact PerRadio.get_set _ _ _ _

theorem setSurvey_rest (s : State) (r : Radio) (v : SurveyState) :
    { (s.setSurvey r v).survey with states := s.survey.states, shared := s.survey.shared } = s.survey := by
  unfold State.setSurvey; simp only [State.mapSurvey_survey]; unfold Scheduler.trimShared; split <;> rfl

/-- A radio that comes to READY from STARTING is not WAITING; the other radio's survey state stays (R78). -/
theorem dueFromStart_surveyOf (s : State) (r q : Radio) :
    (s.dueFromStart r).surveyOf q = if q = r then (s.surveyOf r).wake else s.surveyOf q := setSurvey_surveyOf _ _ _ _

theorem wake_isWaiting (v : SurveyState) : v.wake.isWaiting = false := by cases v <;> rfl

/-- The shared pause stands while a radio is WAITING. -/
theorem setSurvey_shared (s : State) (r : Radio) (v : SurveyState) (q : Radio)
    (h : ((s.setSurvey r v).surveyOf q).isWaiting = true) : (s.setSurvey r v).survey.shared = s.survey.shared := by
  have hs : (s.setSurvey r v).survey = ({ s.survey with states := s.survey.states.set r v } : Scheduler).trimShared := by
    unfold State.setSurvey; simp
  rw [setSurvey_surveyOf] at h
  rw [hs]
  unfold Scheduler.trimShared
  split
  · rfl
  · rename_i hn
    exfalso; apply hn
    unfold State.surveyOf at h
    cases r <;> cases q <;> simp_all [PerRadio.set, PerRadio.get]

/-- What the survey test, the snooze test and the orders they queue keep of the scheduler, as far as one radio shows: its
wait, the times, the mode and the round. -/
structure SurveyKept (r : Radio) (s t : State) : Prop where
  wait : (s.surveyOf r).isWaiting = true → t.surveyOf r = s.surveyOf r ∧ t.survey.shared = s.survey.shared
  pause : t.survey.pause = s.survey.pause
  preload : t.survey.pausePreload = s.survey.pausePreload
  mode : t.survey.mode = s.survey.mode
  once : t.survey.onceDone = s.survey.onceDone
  owed : t.survey.owed = s.survey.owed
  last : t.survey.last = s.survey.last
  urgent : t.survey.urgent = s.survey.urgent
  running : (∀ u w x, s.surveyOf r ≠ .running u w x) → ∀ u w x, t.surveyOf r ≠ .running u w x

variable {r : Radio} {s t u : State}

theorem SurveyKept.refl (s : State) : SurveyKept r s s := ⟨fun _ => ⟨rfl, rfl⟩, rfl, rfl, rfl, rfl, rfl, rfl, rfl, id⟩

theorem SurveyKept.trans (h : SurveyKept r s t) (k : SurveyKept r t u) : SurveyKept r s u where
  wait a := by
    have b := h.wait a
    have c := k.wait (by rw [b.1]; exact a)
    exact ⟨c.1.trans b.1, c.2.trans b.2⟩
  pause := k.pause.trans h.pause
  preload := k.preload.trans h.preload
  mode := k.mode.trans h.mode
  once := k.once.trans h.once
  owed := k.owed.trans h.owed
  last := k.last.trans h.last
  urgent := k.urgent.trans h.urgent
  running a := k.running (h.running a)

theorem SurveyKept.of (h : t.survey = s.survey) : SurveyKept r s t := by
  refine ⟨fun _ => ⟨surveyOf_of h r, by rw [h]⟩, ?_, ?_, ?_, ?_, ?_, ?_, ?_, fun a => ?_⟩
  all_goals first | rw [h] | (rw [surveyOf_of h r]; exact a)

theorem SurveyKept.setSurvey (s : State) (q : Radio) (v : SurveyState) (h : q = r → (s.surveyOf r).isWaiting = false)
    (hv : ∀ u w x, v ≠ .running u w x) : SurveyKept r s (s.setSurvey q v) := by
  have e := setSurvey_rest s q v
  refine ⟨fun a => ?_, ?_, ?_, ?_, ?_, ?_, ?_, ?_, fun a => ?_⟩
  · have hq : r ≠ q := by rintro rfl; rw [h rfl] at a; cases a
    have e : (s.setSurvey q v).surveyOf r = s.surveyOf r := by rw [setSurvey_surveyOf, if_neg hq]
    exact ⟨e, setSurvey_shared s q v r (by rw [e]; exact a)⟩
  · rw [← e]
  · rw [← e]
  · rw [← e]
  · rw [← e]
  · rw [← e]
  · rw [← e]
  · rw [← e]
  · rw [setSurvey_surveyOf]; split
    · exact hv
    · exact a

theorem SurveyKept.orderSurvey (s : State) (q : Radio) (u : Bool) (h : q = r → (s.surveyOf r).isWaiting = false) :
    SurveyKept r s (s.orderSurvey q u) := by
  unfold State.orderSurvey
  refine ((?_ : SurveyKept r s (s.mapSurvey Scheduler.loadOperate)).trans
    (SurveyKept.setSurvey _ q _ (fun e => by exact h e) (by simp))).trans (SurveyKept.of (enqueue_survey _ _ _))
  exact ⟨fun _ => ⟨rfl, rfl⟩, rfl, rfl, rfl, rfl, rfl, rfl, rfl, id⟩

/-- Only a radio that is DUE is ordered a survey (R77). -/
theorem surveyWanted_due {q : Radio} (h : s.surveyWanted q = true) : s.surveyOf q = .due := by
  unfold State.surveyWanted at h; simp at h; exact h.1.2

theorem SurveyKept.ofWanted (s : State) (q : Radio) :
    SurveyKept r s (if s.surveyWanted q = true then s.orderSurvey q false else s) := by
  split
  · rename_i h; exact SurveyKept.orderSurvey _ _ _ fun e => by rw [← e, surveyWanted_due h]; rfl
  · exact SurveyKept.refl _

theorem SurveyKept.surveyTest (s : State) : SurveyKept r s s.surveyTest := by
  unfold State.surveyTest
  split
  · dsimp only; exact (SurveyKept.ofWanted s .A).trans (SurveyKept.ofWanted _ .B)
  · dsimp only
    split
    · exact SurveyKept.refl _
    · split
      · rename_i h; exact SurveyKept.orderSurvey _ _ _ fun e => by rw [← e, surveyWanted_due h]; rfl
      · exact SurveyKept.ofWanted _ _

theorem SurveyKept.dropSurvey (s : State) (q : Radio) : SurveyKept r s (s.dropSurvey q) := by
  unfold State.dropSurvey
  split
  · dsimp only
    split
    · rename_i u hu
      refine (SurveyKept.of (dropOrders_survey _ _ _)).trans (SurveyKept.setSurvey _ _ _ (fun e => ?_) (by simp))
      rw [← e, hu]; rfl
    all_goals exact SurveyKept.of (dropOrders_survey _ _ _)
  · exact SurveyKept.refl _

theorem SurveyKept.sendSnooze (s : State) (q : Radio) : SurveyKept r s (s.sendSnooze q) := by
  unfold State.sendSnooze
  split
  · exact SurveyKept.refl _
  · exact SurveyKept.refl _
  all_goals
    dsimp only
    have : SurveyKept r s ((s.dropSurvey q).enqueue q (.power .snooze)) :=
      (SurveyKept.dropSurvey _ _).trans (SurveyKept.of (enqueue_survey _ _ _))
    split
    · exact this.trans (SurveyKept.surveyTest _)
    · exact this

theorem SurveyKept.sendWake (s : State) (q : Radio) : SurveyKept r s (s.sendWake q) :=
  SurveyKept.of (enqueue_survey _ _ _)

theorem SurveyKept.wakeAll (s : State) : SurveyKept r s s.wakeAll := by
  have one : ∀ s q, SurveyKept r s (s.wakeOne q) := by
    intro s q
    unfold State.wakeOne
    split
    · exact SurveyKept.sendWake _ _
    · exact SurveyKept.refl _
  unfold State.wakeAll
  exact (one _ _).trans (one _ _)

theorem SurveyKept.snoozeTest (s : State) (b : Bool) : SurveyKept r s (s.snoozeTest b) := by
  unfold State.snoozeTest
  split
  · exact SurveyKept.wakeAll s
  · split
    · unfold State.lowSnooze
      dsimp only
      repeat' split
      all_goals first | exact SurveyKept.sendSnooze _ _ | exact SurveyKept.sendWake _ _ | exact SurveyKept.refl _
    · exact SurveyKept.wakeAll s
  · split
    · unfold State.criticalSnooze
      dsimp only
      have one : ∀ s q, SurveyKept r s (if s.criticalSleeper q = true then s.sendSnooze q else s) := by
        intro s q
        split
        · exact SurveyKept.sendSnooze _ _
        · exact SurveyKept.refl _
      exact (one s .A).trans (one _ .B)
    · exact SurveyKept.wakeAll s

end Sys2Proof.Machine
end

