-- ==== Sys2Proof/Laws/PerInstr.lean ====
section
/-! SUPPORT. One family of facts made for each command: `FrameFits`, that the frame of a well-formed request is a frame that
the part takes, of 3 to 96 bytes (R164). -/

namespace Sys2Proof.Laws.FrameFits

open Sys2Proof Sys2Proof.Machine

/-- The frame of a well-formed request has 3 to 96 bytes (R164). -/
def Statement (i : Instr) : Prop := i.wellFormed = true → ∀ f, i.frame = some f → 3 ≤ f.length ∧ f.length ≤ 96

theorem beBytes_length (w n : Nat) : (beBytes w n).length = w := by
  induction w with
  | zero => rfl
  | succ w ih => simp [beBytes, ih]

theorem frameOf_length (c : Nat) (bs : List Byte) : (frameOf c bs).length = bs.length + 3 := by simp [frameOf]

/-- The bytes of fixed-size fields number their sizes together. -/
theorem writeFields_length (l : List (Nat × Nat)) : (writeFields l).length = (l.map (·.1)).sum := by
  unfold writeFields
  induction l with
  | nil => rfl
  | cons x r ih => simp [ih, beBytes_length]

/-- A request whose fields number at most 93 bytes fits. -/
theorem of_request {i : Instr} {c : Nat} {bs : List Byte} (h : i.request = some (c, bs)) (hl : bs.length ≤ 93) :
    Statement i := by
  intro _ f hf
  unfold Instr.frame at hf
  rw [h] at hf
  cases hf
  rw [frameOf_length]
  dsimp only
  omega

/-- A command that is no request has no frame. -/
theorem of_none {i : Instr} (h : i.request = none) : Statement i := by
  intro _ f hf
  unfold Instr.frame at hf
  rw [h] at hf
  cases hf

theorem reportBytes_length (x : RawReport) : (reportBytes x).length = 13 := by
  simp [reportBytes, beSigned, beBytes_length]

theorem flatMap_length (l : List RawReport) : (l.flatMap reportBytes).length = 13 * l.length := by
  induction l with
  | nil => rfl
  | cons x r ih => simp [ih, reportBytes_length]; omega

theorem powerOnReset : Statement (.powerOnReset) := of_none rfl
theorem selectAssert (p : Port) : Statement (.selectAssert p) := of_none rfl
theorem emptySelectPeriod (p : Port) : Statement (.emptySelectPeriod p) := of_none rfl
theorem frameError (p : Port) : Statement (.frameError p) := of_none rfl
theorem unknownRequest (p : Port) : Statement (.unknownRequest p) := of_none rfl
theorem noOp (p : Port) : Statement (.noOp p) := of_request rfl (by simp)
theorem readNotice (p : Port) : Statement (.readNotice p) := of_request rfl (by simp)
theorem setNoticeEnables (p : Port) (kinds : Nat) : Statement (.setNoticeEnables p kinds) := of_request rfl (by simp [writeFields_length])
theorem readRanked (p : Port) (start : Nat) (count : Nat) (order : Nat) : Statement (.readRanked p start count order) := of_request rfl (by simp [writeFields_length])
theorem announce (p : Port) (generations : List Nat) (identity : Nat) : Statement (.announce p generations identity) := by
  intro h f hf
  simp only [Instr.wellFormed, announceWellFormed, Bool.and_eq_true, decide_eq_true_eq] at h
  simp only [Instr.frame, Instr.request, Option.map_some, Option.some.injEq] at hf
  subst hf
  simp [frameOf_length, beBytes_length]
  omega
theorem moduleStatus (p : Port) (ready : Nat) (fault : Nat) : Statement (.moduleStatus p ready fault) := of_request rfl (by simp [writeFields_length])
theorem cellReport (p : Port) (count : Nat) (reports : List RawReport) : Statement (.cellReport p count reports) := by
  intro h f hf
  simp only [Instr.wellFormed, cellReportWellFormed, Bool.and_eq_true, beq_iff_eq] at h
  simp only [Instr.frame, Instr.request, Option.map_some, Option.some.injEq] at hf
  subst hf
  have hl := h.1.2
  rw [frameOf_length, List.length_cons, flatMap_length]
  split at hl <;> omega
theorem takeOrder (p : Port) : Statement (.takeOrder p) := of_request rfl (by simp)
theorem progress (p : Port) (number : Nat) (kind : Nat) (cause : Nat) : Statement (.progress p number kind cause) := of_request rfl (by simp [writeFields_length])
theorem surveyDone (p : Port) : Statement (.surveyDone p) := of_request rfl (by simp)
theorem incoming (p : Port) : Statement (.incoming p) := of_request rfl (by simp)
theorem callStart (p : Port) : Statement (.callStart p) := of_request rfl (by simp)
theorem callEnd (p : Port) : Statement (.callEnd p) := of_request rfl (by simp)
theorem answer (p : Port) : Statement (.answer p) := of_request rfl (by simp)
theorem readCall (p : Port) : Statement (.readCall p) := of_request rfl (by simp)
theorem setProfile (p : Port) (fields : ProfileFields) : Statement (.setProfile p fields) := of_request rfl (by simp [profileBytes, beSigned, beBytes_length, writeFields_length])
theorem readProfile (p : Port) : Statement (.readProfile p) := of_request rfl (by simp)
theorem writePreference (p : Port) (index : Nat) (empty : Nat) (code : Nat) (tier : Nat) : Statement (.writePreference p index empty code tier) := of_request rfl (by simp [writeFields_length])
theorem readPreference (p : Port) (index : Nat) : Statement (.readPreference p index) := of_request rfl (by simp [writeFields_length])
theorem lockPreferences (p : Port) (boundary : Nat) (direction : Nat) : Statement (.lockPreferences p boundary direction) := of_request rfl (by simp [writeFields_length])
theorem setSurveyMode (p : Port) (mode : Nat) : Statement (.setSurveyMode p mode) := of_request rfl (by simp [writeFields_length])
theorem readEntry (p : Port) (slot : Nat) : Statement (.readEntry p slot) := of_request rfl (by simp [writeFields_length])
theorem readRadio (p : Port) (radio : Nat) : Statement (.readRadio p radio) := of_request rfl (by simp [writeFields_length])
theorem readStatus (p : Port) : Statement (.readStatus p) := of_request rfl (by simp)
theorem takeJournal (p : Port) : Statement (.takeJournal p) := of_request rfl (by simp)
theorem setJournalMark (p : Port) (mark : Nat) : Statement (.setJournalMark p mark) := of_request rfl (by simp [writeFields_length])
theorem linkCheck (p : Port) (port : Nat) (setting : Nat) : Statement (.linkCheck p port setting) := of_request rfl (by simp [writeFields_length])
theorem resetPart (p : Port) : Statement (.resetPart p) := of_request rfl (by simp)
theorem supplyLineChange (l : Line) (level : Bool) : Statement (.supplyLineChange l level) := of_none rfl
theorem qualifyingTimerExpiry (l : Line) : Statement (.qualifyingTimerExpiry l) := of_none rfl
theorem linkCheckTimerExpiry (r : Radio) : Statement (.linkCheckTimerExpiry r) := of_none rfl
theorem silenceTimerExpiry (r : Radio) : Statement (.silenceTimerExpiry r) := of_none rfl
theorem startTimerExpiry (r : Radio) : Statement (.startTimerExpiry r) := of_none rfl
theorem takeDeadlineExpiry (r : Radio) : Statement (.takeDeadlineExpiry r) := of_none rfl
theorem silentHoldExpiry (r : Radio) : Statement (.silentHoldExpiry r) := of_none rfl
theorem fadeTimeReached (slot : Nat) : Statement (.fadeTimeReached slot) := of_none rfl
theorem lostTimeReached (slot : Nat) : Statement (.lostTimeReached slot) := of_none rfl
theorem entryRelease (slot : Nat) : Statement (.entryRelease slot) := of_none rfl
theorem exclusionExpiry (slot : Nat) : Statement (.exclusionExpiry slot) := of_none rfl
theorem creditRelaxExpiry : Statement (.creditRelaxExpiry) := of_none rfl
theorem windowTimerExpiry (r : Radio) : Statement (.windowTimerExpiry r) := of_none rfl
theorem pauseExpiry (r : Radio) : Statement (.pauseExpiry r) := of_none rfl
theorem sharedPauseExpiry : Statement (.sharedPauseExpiry) := of_none rfl
theorem backoffExpiry : Statement (.backoffExpiry) := of_none rfl
theorem endingTimerExpiry : Statement (.endingTimerExpiry) := of_none rfl
theorem setupDeadlineExpiry (number : Nat) : Statement (.setupDeadlineExpiry number) := of_none rfl
theorem answerDeadlineExpiry (number : Nat) : Statement (.answerDeadlineExpiry number) := of_none rfl
theorem staggerTimerExpiry : Statement (.staggerTimerExpiry) := of_none rfl
theorem callbackWindowExpiry : Statement (.callbackWindowExpiry) := of_none rfl
theorem resetInputAsserted : Statement (.resetInputAsserted) := of_none rfl

end Sys2Proof.Laws.FrameFits
end

