-- ==== Sys2Proof/Tests/Slice0.lean ====
section
/-! SUPPORT. The model's own tests: an ill-formed command for each check of `Instr.wellFormed`, frames written out byte by
byte, single steps with the values that the manual's rules and worked cases give, and for each statement with hypotheses a
state and operands that meet them. -/

namespace Sys2Proof.Tests

open Sys2Proof Sys2Proof.Machine

set_option Elab.async false

/-! ### Ill-formed commands -/

theorem test_wf_notices : (Instr.setNoticeEnables .station 256).wellFormed = false := by decide
theorem test_wf_ranked_start : (Instr.readRanked .station 256 1 0).wellFormed = false := by decide
theorem test_wf_ranked_count : (Instr.readRanked .station 0 256 0).wellFormed = false := by decide
theorem test_wf_ranked_order : (Instr.readRanked .station 0 1 256).wellFormed = false := by decide
theorem test_wf_announce_length : (Instr.announce (.radio .A) (List.replicate 89 2) 0).wellFormed = false := by decide
theorem test_wf_announce_item : (Instr.announce (.radio .A) [256] 0).wellFormed = false := by decide
theorem test_wf_announce_identity : (Instr.announce (.radio .A) [2] (2 ^ 32)).wellFormed = false := by decide
theorem test_wf_status_ready : (Instr.moduleStatus (.radio .A) 256 0).wellFormed = false := by decide
theorem test_wf_status_fault : (Instr.moduleStatus (.radio .A) 0 256).wellFormed = false := by decide
theorem test_wf_report_count : (Instr.cellReport (.radio .A) 256 []).wellFormed = false := by decide
theorem test_wf_report_number : (Instr.cellReport (.radio .A) 2 [⟨1, 2, 3, 4, -80, 5⟩]).wellFormed = false := by decide
theorem test_wf_report_none : (Instr.cellReport (.radio .A) 7 [⟨1, 2, 3, 4, -80, 5⟩]).wellFormed = false := by decide
theorem test_wf_report_network : RawReport.wellFormed ⟨2 ^ 24, 2, 3, 4, -80, 5⟩ = false := by decide
theorem test_wf_report_generation : RawReport.wellFormed ⟨1, 256, 3, 4, -80, 5⟩ = false := by decide
theorem test_wf_report_cell : RawReport.wellFormed ⟨1, 2, 2 ^ 32, 4, -80, 5⟩ = false := by decide
theorem test_wf_report_channel : RawReport.wellFormed ⟨1, 2, 3, 65536, -80, 5⟩ = false := by decide
theorem test_wf_report_low : RawReport.wellFormed ⟨1, 2, 3, 4, -32769, 5⟩ = false := by decide
theorem test_wf_report_high : RawReport.wellFormed ⟨1, 2, 3, 4, 32768, 5⟩ = false := by decide
theorem test_wf_report_quality : RawReport.wellFormed ⟨1, 2, 3, 4, -80, 256⟩ = false := by decide
theorem test_wf_progress_number : (Instr.progress (.radio .A) 256 0 0).wellFormed = false := by decide
theorem test_wf_progress_kind : (Instr.progress (.radio .A) 1 256 0).wellFormed = false := by decide
theorem test_wf_progress_cause : (Instr.progress (.radio .A) 1 0 256).wellFormed = false := by decide
theorem test_wf_write_index : (Instr.writePreference .station 256 0 1 1).wellFormed = false := by decide
theorem test_wf_write_empty : (Instr.writePreference .station 0 256 1 1).wellFormed = false := by decide
theorem test_wf_write_code : (Instr.writePreference .station 0 0 (2 ^ 24) 1).wellFormed = false := by decide
theorem test_wf_write_tier : (Instr.writePreference .station 0 0 1 256).wellFormed = false := by decide
theorem test_wf_read_preference : (Instr.readPreference .station 256).wellFormed = false := by decide
theorem test_wf_lock_boundary : (Instr.lockPreferences .station 256 0).wellFormed = false := by decide
theorem test_wf_lock_direction : (Instr.lockPreferences .station 0 256).wellFormed = false := by decide
theorem test_wf_mode : (Instr.setSurveyMode .station 256).wellFormed = false := by decide
theorem test_wf_read_entry : (Instr.readEntry .station 256).wellFormed = false := by decide
theorem test_wf_read_radio : (Instr.readRadio .station 256).wellFormed = false := by decide
theorem test_wf_mark : (Instr.setJournalMark .station 256).wellFormed = false := by decide
theorem test_wf_link_port : (Instr.linkCheck .station 256 0).wellFormed = false := by decide
theorem test_wf_link_setting : (Instr.linkCheck .station 0 256).wellFormed = false := by decide
theorem test_wf_fade : (Instr.fadeTimeReached 48).wellFormed = false := by decide
theorem test_wf_lost : (Instr.lostTimeReached 48).wellFormed = false := by decide
theorem test_wf_release : (Instr.entryRelease 48).wellFormed = false := by decide
theorem test_wf_exclusion : (Instr.exclusionExpiry 48).wellFormed = false := by decide
theorem test_wf_setup : (Instr.setupDeadlineExpiry 0).wellFormed = false := by decide
theorem test_wf_answer : (Instr.answerDeadlineExpiry 256).wellFormed = false := by decide

/-- Fields of SET PROFILE at the defaults of R168. -/
def defaults : ProfileFields := ⟨2, 10, 60, 900, 0, 0, 0, 0, 12, 0, 0, 8, 120, 1, 6, 20, 60, 500, 20, 600⟩

theorem test_wf_profile : (Instr.setProfile .station defaults).wellFormed = true := by decide
theorem test_wf_profile_byte : ProfileFields.wellFormed { defaults with smoothing := 256 } = false := by decide
theorem test_wf_profile_word : ProfileFields.wellFormed { defaults with window := 65536 } = false := by decide
theorem test_wf_profile_bias : ProfileFields.wellFormed { defaults with bias2 := -129 } = false := by decide
theorem test_wf_profile_bias_high : ProfileFields.wellFormed { defaults with bias5 := 128 } = false := by decide

/-! ### Frames (12_ports_requests_and_notices 12.2, 12.3 and 12.9) -/

theorem test_frame_no_op : (Instr.noOp .station).frame = some [0x03#8, 0x01#8, 0x38#8] := by decide +kernel
theorem test_frame_read_notice : (Instr.readNotice .station).frame = some [0x03#8, 0x02#8, 0x31#8] := by decide +kernel
theorem test_frame_ok : (Response.mk .ok .none).frame = [0x03#8, 0x00#8, 0x3F#8] := by decide +kernel
theorem test_frame_none : emptyResponse.frame = [0x03#8, 0x0F#8, 0x12#8] := by decide +kernel
theorem test_judge_no_op : judgePeriod (.radio .A) [0x03#8, 0x01#8, 0x38#8, 0xFF#8, 0xFF#8] = .noOp (.radio .A) := by
  decide +kernel
theorem test_judge_bad_check : judgePeriod .station [0x03#8, 0x01#8, 0x39#8] = .frameError .station := by decide +kernel
theorem test_judge_trailing : judgePeriod .station [0x03#8, 0x01#8, 0x38#8, 0x00#8] = .frameError .station := by
  decide +kernel
theorem test_judge_empty : judgePeriod .station [0xFF#8, 0x01#8] = .emptySelectPeriod .station := by decide +kernel
theorem test_word : decodeTableWord 8 1 = none := by decide
theorem test_withFetchWord : State.reset.withFetchWord 8 1 = State.reset := by decide +kernel

/-! ### Small states -/

/-- The state after a command. -/
def run (c : Instr) (s : State) : State :=
  match exec c s with
  | .next t => t
  | .fault _ | .refused _ => s

/-- The code of the response that is pending on a port. -/
def code (s : State) (p : Port) : Option RespCode := (s.port p).response.map (·.code)

/-- A radio in a working state, announced with generations 4 and 5. -/
def raise (r : Radio) (v : RadioState) (s : State) : State :=
  s.mapRadio r fun c =>
    { c with state := v, silence := some 9, generations := some ⟨false, false, true, true⟩, identity := some 7 }

/-- Both radios READY, nothing else happened since reset. -/
def up : State := raise .B .ready (raise .A .ready State.reset)

/-- A cell heard on a radio: level -80 dBm, quality 12, credit 8, tier 1, no bias.  By R32 its score is
(-1280 + 2240) / 4 + 96 + 128 + 32 = 496. -/
def cell (r : Radio) : Entry where
  radio := r
  network := 26201
  generation := 4
  cell := 77
  channel := 100
  level := -1280
  quality := some 12
  reports := 3
  credit := 8
  tier := 1
  state := .ranked .steady
  age := 0
  excludedFor := none
  pin := false
  score := 496

/-- A slot holds an entry. -/
def place (i : Nat) (e : Entry) (s : State) : State :=
  { s with table := { s.table with slots := putSlot s.table.slots i (some e) } }

/-- A report of that cell. -/
def report : RawReport := ⟨26201, 4, 77, 100, -80, 12⟩

/-- An attempt on slot 5 of radio A. -/
def attemptA (step : AttemptStep) : Attempt :=
  ⟨41, .A, 5, 26201, 4, 77, step, ⟨0, 0⟩, none, none, if step = .taken then some 3 else none,
    if step = .alerting then some 3 else none⟩

/-- A call in a state, with attempts in flight. -/
def inCall (v : CallState) (l : List Attempt) (s : State) : State :=
  s.mapCall fun c => { c with state := v, attempts := l, number := 1, startTime := some ⟨0, 0⟩ }

/-- An attempt of radio A in flight, the call PLACING and its entry pinned. -/
def placing (step : AttemptStep) : State :=
  inCall .placing [attemptA step] (place 5 { cell .A with pin := true } (raise .A .attempting up))

/-- A callback part held on radio A through slot 5. -/
def partA (o : Option Offer) : CallbackPart := ⟨600000, 5, true, some ⟨.A, 26201, 4, 77, some 5⟩, o⟩

/-- CALLBACK with that part. -/
def callback (o : Option Offer) : State :=
  (inCall .callback [] (place 5 { cell .A with pin := true } up)).mapCall fun c => { c with part := some (partA o) }

/-! ### Single steps -/

theorem test_powerOnReset : ((run .powerOnReset up).radio .A).state = .off := by decide +kernel
theorem test_resetInput : ((run .resetInputAsserted up).port .station).attention = false := by decide +kernel
theorem test_selectAssert : ((run (.selectAssert .station) up).port .station).shiftOut = [0x03#8, 0x0F#8, 0x12#8] := by
  decide +kernel
theorem test_emptySelectPeriod : code (run (.emptySelectPeriod .station) (run (.noOp .station) up)) .station = none := by
  decide +kernel
theorem test_frameError : code (run (.frameError .station) up) .station = some .frameError := by decide +kernel
theorem test_unknownRequest : code (run (.unknownRequest .station) up) .station = some .unknownRequest := by decide +kernel
theorem test_noOp : ((run (.noOp (.radio .A)) up).radio .A).silence = some 0 := by decide +kernel
theorem test_noOp_off : code (run (.noOp (.radio .A)) State.reset) (.radio .A) = some .notAnnounced := by decide +kernel
theorem test_readNotice : code (run (.readNotice .station) up) .station = some .noneCode := by decide +kernel
theorem test_setNoticeEnables : code (run (.setNoticeEnables .station 128) up) .station = some .range := by decide +kernel
theorem test_readRanked : ((run (.readRanked .station 0 1 0) (place 5 (cell .A) up)).port .station).response
    = some ⟨.ok, .ranked 1 [⟨5, .A, 26201, 4, 77, .ranked .steady, 1, 496⟩]⟩ := by decide +kernel
theorem test_announce : (run (.announce (.radio .A) [4, 5, 4] 7) State.reset).radio .A
    = ⟨.starting, some ⟨false, false, true, true⟩, some 7, none, some 0, [], none, ⟨0, 0, 0, 0, 0⟩⟩ := by decide +kernel
theorem test_announce_range : code (run (.announce (.radio .A) [4, 6] 7) State.reset) (.radio .A) = some .range := by
  decide +kernel
theorem test_moduleStatus : ((run (.moduleStatus (.radio .A) 1 0) (run (.announce (.radio .A) [4] 7) State.reset)).radio
    .A).queue = [.survey 8000 false] := by decide +kernel
theorem test_moduleStatus_fault : ((run (.moduleStatus (.radio .A) 0 1) up).radio .A).state = .fault := by decide +kernel
/-- R3, R33: a newcomer at -80 dBm with quality 12 has credit 8, tier 1 and the score 496; R20, R95: in
SEEKING it is at once the target of an attempt. -/
theorem test_cellReport : ((run (.cellReport (.radio .A) 1 [report]) (inCall .seeking [] up)).entry 0,
    ((run (.cellReport (.radio .A) 1 [report]) (inCall .seeking [] up)).radio .A).queue)
      = (some { cell .A with reports := 1, state := .ranked .fresh, pin := true }, [.attempt 1 0 26201 4 77 100]) := by
  decide +kernel
/-- R30 with shift 2: from -1280 toward 16 * -70 = -1120 the step is 40. -/
theorem test_cellReport_smooth : ((run (.cellReport (.radio .A) 1 [{ report with level := -70 }])
    (place 5 (cell .A) up)).entry 5).map (·.level) = some (-1240) := by decide +kernel
theorem test_takeOrder : ((run (.takeOrder (.radio .A)) (up.setQueue .A [.survey 8000 false])).radio .A).state
    = .surveying := by decide +kernel
theorem test_takeOrder_empty : code (run (.takeOrder (.radio .A)) up) (.radio .A) = some .empty := by decide +kernel
/-- R115, R36: the credit of the target rises from 8 to 10 and the route is the radio. -/
theorem test_progress_connected : ((run (.progress (.radio .A) 41 2 0) (placing .alerting)).call.route,
    ((run (.progress (.radio .A) 41 2 0) (placing .alerting)).entry 5).map (·.credit)) = (some .A, some 10) := by
  decide +kernel
theorem test_surveyDone : code (run (.surveyDone (.radio .A)) up) (.radio .A) = some .stale := by decide +kernel
theorem test_incoming : (run (.incoming (.radio .B)) (callback none)).offer = some ⟨.B, .ringing, none⟩ := by decide +kernel
theorem test_incoming_idle : code (run (.incoming (.radio .B)) up) (.radio .B) = some .notAccepted := by decide +kernel
theorem test_callStart : (run (.callStart .station) State.reset).call.state = .seeking := by decide +kernel
theorem test_callEnd_cancel : ((run (.callEnd .station) (placing .taken)).radio .A).queue = [.cancel 41 .callerEnd] := by
  decide +kernel
theorem test_answer : (run (.answer .station) (callback (some ⟨.B, .ringing, none⟩))).offer
    = some ⟨.B, .answering, none⟩ := by decide +kernel
theorem test_answer_none : code (run (.answer .station) up) .station = some .noneCode := by decide +kernel
theorem test_readCall : code (run (.readCall .station) up) .station = some .ok := by decide +kernel
/-- R168: a lost time of 10 s beside a fade time of 60 s is taken as 61 s, and named as clamped. -/
theorem test_setProfile : ((run (.setProfile .station { defaults with fade := 60, lost := 10 }) up).port .station).response
    = some ⟨.ok, .clamps [2]⟩ := by decide +kernel
theorem test_readProfile : ((run (.readProfile .station) up).port .station).response = some ⟨.ok, .profile Profile.default⟩ := by
  decide +kernel
theorem test_writePreference : ((run (.writePreference .station 0 0 26201 3) (place 5 (cell .A) up)).entry 5).map (·.score)
    = some 560 := by decide +kernel
theorem test_writePreference_range : code (run (.writePreference .station 16 0 26201 3) up) .station = some .range := by
  decide +kernel
theorem test_readPreference : ((run (.readPreference .station 15) up).port .station).response
    = some ⟨.ok, .prefRead 15 none false none⟩ := by decide +kernel
theorem test_lockPreferences : ((run (.lockPreferences .station 4 1) up).port .station).response
    = some ⟨.ok, .prefLocked ⟨4, .upper⟩ 12⟩ := by decide +kernel
theorem test_setSurveyMode : (run (.setSurveyMode .station 1) State.reset).survey.onceDone = true := by decide +kernel
theorem test_readEntry : ((run (.readEntry .station 5) (place 5 (cell .A) up)).port .station).response
    = some ⟨.ok, .entry (some (cell .A, some 0))⟩ := by decide +kernel
theorem test_readRadio : code (run (.readRadio .station 2) up) .station = some .range := by decide +kernel
theorem test_readStatus : code (run (.readStatus .station) up) .station = some .ok := by decide +kernel
theorem test_takeJournal : code (run (.takeJournal .station) up) .station = some .empty := by decide +kernel
theorem test_setJournalMark : (run (.setJournalMark .station 32) up).journal.mark = 32 := by decide +kernel
theorem test_linkCheck : (run (.linkCheck .station 1 1) up).linkCheck = ⟨none, some 0⟩ := by decide +kernel
theorem test_resetPart : ((run (.resetPart .station) up).radio .A).state = .off := by decide +kernel
theorem test_supplyLineChange : (run (.supplyLineChange .lowv true) up).supply.lowv = ⟨true, false, some 0⟩ := by
  decide +kernel
theorem test_qualifyingTimerExpiry : (run (.qualifyingTimerExpiry .lowv) (run (.supplyLineChange .lowv true)
    up)).supply.condition = .low := by decide +kernel
theorem test_linkCheckTimerExpiry : (run (.linkCheckTimerExpiry .B) (run (.linkCheck .station 1 1) up)).linkCheck
    = ⟨none, none⟩ := by decide +kernel
theorem test_silenceTimerExpiry : ((run (.silenceTimerExpiry .A) (place 5 (cell .A) up)).entry 5).map (·.state)
    = some (.held .steady) := by decide +kernel
theorem test_startTimerExpiry : ((run (.startTimerExpiry .A) (run (.announce (.radio .A) [4] 7) State.reset)).radio .A).state
    = .fault := by decide +kernel
theorem test_takeDeadlineExpiry : (run (.takeDeadlineExpiry .A) (run (.callStart .station) (place 5 (cell .A) up))).call.state
    = .backoff := by decide +kernel
theorem test_silentHoldExpiry : ((run (.silentHoldExpiry .A) (run (.silenceTimerExpiry .A) (place 5 (cell .A) up))).entry
    5).map (fun e => (e.state, e.age)) = some (.lost, 60000) := by decide +kernel
/-- R32: the fading penalty takes 128 from 496. -/
theorem test_fadeTimeReached : ((run (.fadeTimeReached 5) (place 5 (cell .A) up)).entry 5).map (fun e => (e.state, e.score))
    = some (.ranked .fading, 368) := by decide +kernel
theorem test_lostTimeReached : ((run (.lostTimeReached 5) (place 5 { cell .A with state := .ranked .fading } up)).entry
    5).map (·.state) = some .lost := by decide +kernel
theorem test_entryRelease : (run (.entryRelease 5) (place 5 { cell .A with state := .lost } up)).entry 5 = none := by
  decide +kernel
theorem test_exclusionExpiry : ((run (.exclusionExpiry 5) (place 5 { cell .A with excludedFor := some 9 } up)).entry
    5).map (·.excludedFor) = some none := by decide +kernel
theorem test_creditRelaxExpiry : ((run .creditRelaxExpiry (place 5 { cell .A with credit := 12 } up)).entry 5).map (·.credit)
    = some 11 := by decide +kernel
theorem test_windowTimerExpiry : (run (.windowTimerExpiry .A) ((raise .A .surveying up).setSurvey .A
    (.running false 8000 0))).surveyOf .A = .waiting (some ⟨120000, false⟩) := by decide +kernel
theorem test_pauseExpiry : (run (.pauseExpiry .A) (up.setSurvey .A (.waiting (some ⟨5, false⟩)))).surveyOf .A
    = .ordered false := by decide +kernel
theorem test_sharedPauseExpiry : (run .sharedPauseExpiry ((up.setSurvey .A (.waiting none)).mapSurvey fun c =>
    { c with shared := some ⟨5, false⟩ })).survey.shared = none := by decide +kernel
theorem test_backoffExpiry : (run .backoffExpiry ((inCall .backoff [] State.reset).mapCall fun c =>
    { c with backoff := some 3 })).call.state = .seeking := by decide +kernel
theorem test_endingTimerExpiry : (run .endingTimerExpiry ((inCall .ending [] up).mapCall fun c =>
    { c with ending := some 3 })).journal.records.map (·.reason) = [some .endingTimeout] := by decide +kernel
theorem test_setupDeadlineExpiry : ((run (.setupDeadlineExpiry 41) (placing .taken)).entry 5).map
    (fun e => (e.credit, e.pin, e.excludedFor)) = some (6, false, some 20000) := by decide +kernel
theorem test_answerDeadlineExpiry : (run (.answerDeadlineExpiry 41) (placing .alerting)).call.state = .backoff := by
  decide +kernel
theorem test_staggerTimerExpiry : (run .staggerTimerExpiry ((placing .taken).mapCall fun c =>
    { c with stagger := .counting 6000 })).call.stagger = .opened := by decide +kernel
theorem test_callbackWindowExpiry : (run .callbackWindowExpiry (callback none)).call.state = .idle := by decide +kernel
theorem test_idle_millisecond : (match step State.reset with
    | .next t => t.journal.clock
    | .fault _ | .refused _ => ⟨0, 0⟩) = ⟨0, 1⟩ := by decide +kernel

/-! ### States that meet the hypotheses of the statements: the machine as a whole and the ports -/

theorem entry_reset (i : Nat) : State.reset.entry i = none := by
  show (Vector.replicate 48 none).toList[i]?.join = none
  rw [Vector.toList_replicate, List.getElem?_replicate]
  split <;> rfl

theorem prefs_reset (j : Nat) : State.reset.prefs.at j = none := by
  show (Vector.replicate 16 none).toList[j]?.join = none
  rw [Vector.toList_replicate, List.getElem?_replicate]
  split <;> rfl

theorem entry_place (i : Nat) (e : Entry) (s : State) (h : i < 48) (j : Nat) :
    (place i e s).entry j = if j = i then some e else s.entry j := by
  unfold place State.entry
  rw [slotAt_putSlot]
  simp [h]

theorem listens_up (p : Port) : up.Listens p := ⟨rfl, by rcases p with _ | (_ | _) <;> rfl⟩
theorem speaks_up (r : Radio) : up.Speaks r := ⟨listens_up _, by cases r <;> rfl, by cases r <;> decide⟩

theorem witness_StepRunsFrontCommand :
    ({ up with pending := [.noOp .station, .callStart .station] } : State).pending
      = .noOp .station :: [.callStart .station] := rfl

theorem witness_EveryCommandCompletes : Instr.callStart .station ≠ .powerOnReset := by decide

theorem witness_OwnersAlone : ∃ t, exec (.creditRelaxExpiry) up = .next t ∧ Instr.creditRelaxExpiry ≠ .powerOnReset
    ∧ (∀ p f, Instr.creditRelaxExpiry ≠ .setProfile p f) ∧ (∀ p a b c d, Instr.creditRelaxExpiry ≠ .writePreference p a b c d)
    ∧ (∀ p a b, Instr.creditRelaxExpiry ≠ .lockPreferences p a b) ∧ (∀ l v, Instr.creditRelaxExpiry ≠ .supplyLineChange l v)
    ∧ (∀ l, Instr.creditRelaxExpiry ≠ .qualifyingTimerExpiry l) ∧ (∀ p m, Instr.creditRelaxExpiry ≠ .setJournalMark p m)
    ∧ (∀ p k, Instr.creditRelaxExpiry ≠ .setNoticeEnables p k) ∧ (∀ p a b, Instr.creditRelaxExpiry ≠ .linkCheck p a b)
    ∧ (∀ r, Instr.creditRelaxExpiry ≠ .linkCheckTimerExpiry r) ∧ (∀ p, Instr.creditRelaxExpiry ≠ .callStart p)
    ∧ (∀ p, Instr.creditRelaxExpiry ≠ .resetPart p) :=
  ⟨_, rfl, by simp, by simp, by simp, by simp, by simp, by simp, by simp, by simp, by simp, by simp, by simp, by simp⟩

/-- The last millisecond before the running time wraps, with a qualifying timer and a link-check timer at their last count. -/
def lastMs : State :=
  { up with
    journal := { up.journal with clock := ⟨4294967295, 999⟩ }
    supply := { up.supply with lowv := ⟨true, false, some 499⟩ }
    linkCheck := ⟨some 9999, none⟩ }

theorem witness_IdleMillisecond : lastMs.pending = [] ∧ lastMs.resetAsserted = false ∧ lastMs.journal.clock.ms < 1000
    ∧ lastMs.journal.clock.sec < 4294967296 ∧ (lastMs.supply.line .lowv).timer = some 499
    ∧ (lastMs.supply.line .critv).timer = none ∧ lastMs.linkCheck.get .A = some 9999 ∧ lastMs.linkCheck.get .B = none := by
  decide

theorem witness_IdleMillisecond_reset : ({ up with resetAsserted := true } : State).pending = []
    ∧ ({ up with resetAsserted := true } : State).resetAsserted = true := ⟨rfl, rfl⟩

/-- A request whose every field stands at its largest value. -/
def largest : Instr := .writePreference .station 255 255 16777215 255

theorem witness_RequestsReadBack : largest.wellFormed = true ∧ largest.port = some .station
    ∧ largest.frame = some [0x09#8, 0x2C#8, 0xFF#8, 0xFF#8, 0xFF#8, 0xFF#8, 0xFF#8, 0xFF#8, 0xFD#8] := by
  decide +kernel

theorem witness_DamagedFrames : (Instr.noOp .station).wellFormed = true ∧ (Instr.noOp .station).port = some .station
    ∧ (Instr.noOp .station).frame = some [0x03#8, 0x01#8, 0x38#8] ∧ 0 < 2 ∧ 2 < 3
    ∧ (∃ b ∈ [0xFF#8, 0x00#8], b ≠ 0xFF#8) ∧ (0x39#8 : Byte) ≠ frameCheck [0x03#8, 0x01#8] := by decide +kernel

theorem witness_ResetInput : (Instr.noOp .station).port = some .station ∧ (∀ q, Instr.noOp .station ≠ .selectAssert q)
    ∧ ({ up with resetAsserted := true } : State).resetAsserted = true
    ∧ ((up.mapPort .station fun x => { x with ignoring := true }).port .station).ignoring = true :=
  ⟨rfl, by simp, rfl, rfl⟩

theorem witness_SelectPeriods (p : Port) : up.resetAsserted = false ∧ (up.port p).selected = false ∧ up.Listens p :=
  ⟨rfl, by rcases p with _ | (_ | _) <;> rfl, listens_up p⟩

theorem witness_RefusedOnThePort_frames : up.Listens (.radio .B) := listens_up _

theorem witness_RefusedOnThePort_station : senders (.takeOrder .station) = some .radioOnly
    ∧ (Instr.takeOrder .station).port = some .station ∧ up.Listens .station := ⟨rfl, rfl, listens_up _⟩

theorem witness_RefusedOnThePort_radio : senders (.callStart (.radio .A)) = some .stationOnly
    ∧ (Instr.callStart (.radio .A)).port = some (.radio .A) ∧ up.Listens (.radio .A) ∧ up.linkCheck.get .A = none :=
  ⟨rfl, rfl, listens_up _, rfl⟩

/-- Radio A's port in link-check mode. -/
def checking : State := { up with linkCheck := ⟨some 0, none⟩ }

theorem witness_LinkCheckMode_pattern : (senders (.noOp (.radio .A))).isSome = true
    ∧ (Instr.noOp (.radio .A)).port = some (.radio .A) ∧ checking.Listens (.radio .A)
    ∧ (checking.linkCheck.get .A).isSome = true ∧ ∀ p g n, Instr.noOp (.radio .A) ≠ .announce p g n :=
  ⟨rfl, rfl, ⟨rfl, rfl⟩, rfl, by simp⟩

theorem witness_LinkCheckMode_pattern_announce : (senders (.announce (.radio .A) [2] 0)).isSome = true
    ∧ (Instr.announce (.radio .A) [2] 0).port = some (.radio .A) := ⟨rfl, rfl⟩

theorem witness_RefusedOnThePort_off : senders (.noOp (.radio .B)) = some .every
    ∧ senders (.progress (.radio .B) 0 0 0) = some .radioOnly ∧ (Instr.noOp (.radio .B)).port = some (.radio .B)
    ∧ (∀ p g n, Instr.noOp (.radio .B) ≠ .announce p g n) ∧ State.reset.Listens (.radio .B)
    ∧ State.reset.linkCheck.get .B = none ∧ (State.reset.radio .B).state = .off :=
  ⟨rfl, rfl, rfl, by simp, ⟨rfl, rfl⟩, rfl, rfl⟩

theorem witness_HeardAndNoOp_states : (up.radio .A).state = .ready ∧ ((raise .A .inCall up).radio .A).state = .inCall
    ∧ (State.reset.radio .A).state = .off ∧ ((raise .A .fault up).radio .A).state = .fault := by decide

theorem hands_station : up.Hands .station (up.opened .station) := ⟨listens_up _, rfl⟩
theorem hands_radio (r : Radio) : up.Hands (.radio r) (up.heardOn r) := ⟨speaks_up r, rfl⟩

theorem witness_HeardAndNoOp : up.Hands .station (up.opened .station) ∧ up.Hands (.radio .A) (up.heardOn .A) :=
  ⟨hands_station, hands_radio _⟩

theorem witness_Notices_none : ∀ k, (((up.opened .station).port .station).pending.has k
    && ((up.opened .station).port .station).enabled.has k) = false := by intro k; cases k <;> decide

/-- TABLE and JOURNAL pending at the station. -/
def noticed : State := (up.post .table).setNotice .station .journal true

theorem witness_Notices_event : noticed.Hands .station (noticed.opened .station)
    ∧ noticeOrder = [.call, .ring, .route, .radio, .supply] ++ .table :: [.journal, .order]
    ∧ (∀ j ∈ [NoticeKind.call, .ring, .route, .radio, .supply],
      (((noticed.opened .station).port .station).pending.has j && ((noticed.opened .station).port .station).enabled.has j)
        = false)
    ∧ ((noticed.opened .station).port .station).pending.has .table = true
    ∧ ((noticed.opened .station).port .station).enabled.has .table = true :=
  ⟨⟨⟨rfl, rfl⟩, rfl⟩, rfl, by decide, rfl, rfl⟩

theorem witness_Notices_enables : up.Hands .station (up.opened .station) ∧ 127 < 256 ∧ 127 < 128 ∧ 128 < 256
    ∧ ¬ 128 < 128 ∧ up.Hands (.radio .B) (up.heardOn .B) ∧ (128 = 0 ∨ 128 = 128) ∧ ¬ (1 = 0 ∨ 1 = 128) :=
  ⟨hands_station, by decide, by decide, by decide, by decide, hands_radio _, by decide, by decide⟩

/-! ### Reading, the journal, link check, resets and the preference list -/

/-- Two ranked entries of different radios. -/
def two : State := place 6 { cell .B with score := 500 } (place 5 (cell .A) up)

theorem witness_RankedListOrder : two.ranked[0]? = some (6, { cell .B with score := 500 }) ∧ two.ranked[1]? = some (5, cell .A)
    ∧ 0 < 1 := by decide +kernel

theorem witness_ReadRanked : up.Hands .station (up.opened .station) ∧ 47 < 48 ∧ 8 < 9 ∧ 47 ≤ 47 ∧ 1 ≤ 8 ∧ 8 ≤ 8
    ∧ (Port.station = .station → 0 = 0) ∧ up.Hands (.radio .A) (up.heardOn .A) ∧ (Port.radio .A = .station → 7 = 0) :=
  ⟨hands_station, by decide, by decide, by decide, by decide, by decide, by simp, hands_radio _, by simp⟩

theorem witness_ReadRanked_alternate : two.Hands .station (two.opened .station) ∧ 47 ≤ 47 ∧ 1 ≤ 1 ∧ 1 ≤ 8 :=
  ⟨⟨⟨rfl, rfl⟩, rfl⟩, by decide, by decide, by decide⟩

theorem witness_ReadRequests_slot : two.Listens .station ∧ 47 < 48 ∧ 47 ≤ 47 ∧ two.entry 47 = none ∧ two.entry 6 ≠ none := by
  refine ⟨⟨rfl, rfl⟩, by decide, by decide, ?_, ?_⟩ <;> decide +kernel

theorem witness_ReadRequests_radio : up.Listens .station ∧ 1 < 2 ∧ 0 = Radio.code .A ∧ 1 = Radio.code .B :=
  ⟨listens_up _, by decide, rfl, rfl⟩

theorem witness_ReadCallAndStatus : up.Listens .station := listens_up _
theorem witness_ReadRequests_preference : up.Listens .station ∧ 15 < 16 ∧ 15 ≤ 15 := ⟨listens_up _, by decide, by decide⟩

/-- A record of a call's end. -/
def aRecord : JournalRecord := ⟨.callEnd, 1, none, none, none, none, none, none, some .callerEnd, 5, 6, 0⟩

/-- A journal of some records. -/
def withRecords (n : Nat) : State := { up with journal := { up.journal with records := List.replicate n aRecord } }

theorem witness_JournalRequests_take : up.Listens .station ∧ up.journal.records = [] ∧ (withRecords 24).Listens .station
    ∧ (withRecords 24).journal.records = aRecord :: List.replicate 23 aRecord := ⟨listens_up _, rfl, ⟨rfl, rfl⟩, rfl⟩

theorem witness_JournalRequests_mark : up.Listens .station ∧ 32 < 33 ∧ 1 ≤ 32 ∧ 32 ≤ 32 := ⟨listens_up _, by decide, by decide, by decide⟩

theorem witness_JournalKeepsLast32 : recordsSound (withRecords 32).journal.records
    ∧ ∀ x ∈ (withRecords 32).journal.records, x.gap ≤ 255 := by
  refine ⟨⟨by decide, ?_⟩, ?_⟩ <;> decide

theorem witness_LinkCheckMode : up.Listens .station ∧ up.call.state = .idle ∧ 1 < 2 ∧ 1 = Radio.code .B ∧ 1 ≤ 1
    ∧ (inCall .seeking [] up).Listens .station ∧ (inCall .seeking [] up).call.state ≠ .idle ∧ up.resetAsserted = false :=
  ⟨listens_up _, rfl, by decide, rfl, by decide, ⟨rfl, rfl⟩, by decide, rfl⟩

theorem witness_ResetPart : up.Listens .station ∧ up.call.state = .idle ∧ (callback none).Listens .station
    ∧ (callback none).call.state = .callback ∧ (inCall .ending [] up).call.state ≠ .idle
    ∧ (inCall .ending [] up).call.state ≠ .callback := ⟨listens_up _, rfl, ⟨rfl, rfl⟩, rfl, by decide, by decide⟩

/-- A lock of the indices from 15 on. -/
def locked : State := { up with prefs := { up.prefs with lock := some ⟨15, .upper⟩ } }

theorem witness_LockPreferences : up.Listens .station ∧ up.prefs.lock = none ∧ 16 < 17 ∧ 16 ≤ 16 ∧ 1 < 2
    ∧ locked.Listens .station ∧ locked.prefs.lock.isSome = true :=
  ⟨listens_up _, rfl, by decide, by decide, by decide, ⟨rfl, rfl⟩, rfl⟩

theorem witness_LockHolds : ∃ t, exec (.writePreference .station 15 1 0 0) locked = .next t
    ∧ Instr.writePreference .station 15 1 0 0 ≠ .powerOnReset ∧ locked.prefs.lock = some ⟨15, .upper⟩
    ∧ (LockDirection.upper = .upper ∧ 15 ≤ 15) := ⟨_, rfl, by simp, rfl, rfl, by decide⟩

/-- A state with nothing heard, no order queued and no notice pending is sound when its timers are. -/
theorem sound_up : up.Sound where
  table := by
    refine ⟨⟨by decide +kernel, by decide +kernel⟩, ⟨?_, ?_⟩⟩
    · intro i e h
      rw [show slotAt up.table.slots i = State.reset.entry i from rfl, entry_reset] at h
      cases h
    · intro i j e f h
      rw [show slotAt up.table.slots i = State.reset.entry i from rfl, entry_reset] at h
      cases h
  timers := by intro r; cases r <;> exact ⟨rfl, rfl⟩
  queues := by intro r; cases r <;> exact ⟨List.nodup_nil, rfl⟩
  attempts := ⟨List.nodup_nil, List.nodup_nil, (fun _ h => nomatch h), (fun _ h => nomatch h), by decide⟩
  lines := by unfold State.LinesSound; decide
  journal := ⟨⟨by decide, by decide⟩, by decide, rfl⟩
  attention := by intro p; rcases p with _ | (_ | _) <;> decide

theorem witness_StepKeepsSound : up.Sound ∧ ∃ t, step up = .next t := ⟨sound_up, _, rfl⟩

theorem witness_WritePreference : up.Listens .station ∧ up.Sound ∧ ¬ (∃ l, up.prefs.lock = some l
      ∧ ((l.direction = .lower ∧ 15 < l.boundary) ∨ (l.direction = .upper ∧ l.boundary ≤ 15)))
    ∧ 1 < 2 ∧ 15 < 16 ∧ 999999 < 1000000 ∧ (∀ j q, j ≠ 15 → up.prefs.at j = some q → q.code ≠ 999999) := by
  refine ⟨listens_up _, sound_up, ?_, by decide, by decide, by decide, ?_⟩
  · rintro ⟨l, h, -⟩; cases h
  · intro j q _ h
    rw [show up.prefs.at j = State.reset.prefs.at j from rfl, prefs_reset] at h
    cases h

theorem witness_WritePreference_locked : locked.Listens .station ∧ ∃ l, locked.prefs.lock = some l
      ∧ (l.direction = .upper ∧ l.boundary ≤ 15) := ⟨⟨rfl, rfl⟩, _, rfl, rfl, by decide⟩

/-- Index 0 holds the code 7. -/
def listed : State := { up with prefs := { up.prefs with list := up.prefs.list.set 0 (some ⟨7, 3⟩) } }

theorem witness_WritePreference_duplicate : listed.Listens .station ∧ ∃ j q, j ≠ 15 ∧ listed.prefs.at j = some q ∧ q.code = 7 :=
  ⟨⟨rfl, rfl⟩, 0, ⟨7, 3⟩, by decide, by decide +kernel, rfl⟩

/-! ### The supply monitor, the profile and the survey scheduler -/

theorem witness_SupplyLineChange : up.resetAsserted = false ∧ false = (up.supply.line .lowv).raw
    ∧ true ≠ (up.supply.line .lowv).raw ∧ true ≠ (up.supply.line .lowv).qualified
    ∧ false ≠ (lastMs.supply.line .lowv).raw ∧ false = (lastMs.supply.line .lowv).qualified
    ∧ ({ up with resetAsserted := true } : State).resetAsserted = true := by decide

/-- CRITV about to qualify, the call IDLE. -/
def turning : State := { up with supply := { up.supply with critv := ⟨true, false, some 499⟩ } }

theorem witness_QualifyingTimerExpiry : turning.resetAsserted = false ∧ (turning.supply.line .lowv).timer = none
    ∧ (turning.supply.line .critv).timer ≠ none ∧ turning.call.state = .idle ∧ turning.call.part = none
    ∧ (turning.radio .A).state = .ready ∧ (run (.qualifyingTimerExpiry .critv) turning).supply.condition = .critical := by
  decide +kernel

/-- CRITICAL about to end, radio A in SNOOZE. -/
def easing : State :=
  { raise .A .snooze up with supply := ⟨⟨false, false, none⟩, ⟨false, true, some 499⟩, .critical⟩ }

theorem witness_QualifyingTimerExpiry_wake : easing.resetAsserted = false ∧ (easing.supply.line .critv).timer ≠ none
    ∧ (easing.radio .A).state = .snooze ∧ (run (.qualifyingTimerExpiry .critv) easing).supply.condition = .normal := by
  decide +kernel

theorem witness_SetSurveyMode : up.Listens .station ∧ 3 < 4 ∧ 3 ≤ 3 ∧ up.survey.mode ≠ .off ∧ up.survey.mode ≠ .paused
    ∧ up.supply.condition = .normal ∧ up.profile.arrangement = .parallel ∧ (up.radio .A).state = .ready
    ∧ up.surveyOf .A = .due :=
  ⟨listens_up _, by decide, by decide, by decide, by decide, rfl, rfl, rfl, rfl⟩

theorem witness_SetProfile : up.Listens .station ∧ up.call.state = .idle ∧ 1 < 2 ∧ defaults.recovery ≤ 1
    ∧ defaults.arrangement ≤ 1 ∧ defaults.dual ≤ 1 ∧ (∀ r n, (up.radio r).silence = some n → n < 2 ^ 12)
    ∧ (∀ r n, up.table.silentHold.get r = some n → n < 60 * 1000) ∧ (inCall .ending [] up).call.state ≠ .idle := by
  refine ⟨listens_up _, rfl, by decide, by decide, by decide, by decide, ?_, ?_, by decide⟩
  · intro r n h; cases r <;> cases h <;> decide
  · intro r n h; cases r <;> cases h

/-- Radio A SURVEYING, its window running. -/
def surveying : State := (raise .A .surveying up).setSurvey .A (.running false 8000 9999)

theorem witness_SurveyEnds : surveying.Speaks .A ∧ (surveying.heardOn .A).surveyOf .A = .running false 8000 9999
    ∧ (surveying.heardOn .A).call.state = .idle ∧ (surveying.heardOn .A).survey.urgent = false
    ∧ ((surveying.heardOn .A).radio .A).state = .surveying ∧ surveying.resetAsserted = false
    ∧ (surveying.heardOn .A).survey.mode = .continuous :=
  ⟨⟨⟨rfl, rfl⟩, rfl, by decide⟩, rfl, rfl, rfl, rfl, rfl, rfl⟩

theorem witness_SurveyEnds_stale : up.Speaks .A ∧ (∀ u w x, (up.heardOn .A).surveyOf .A ≠ .running u w x)
    ∧ (∀ u w x, up.surveyOf .A ≠ .running u w x) :=
  ⟨speaks_up _, (by intro u w x h; cases h), (by intro u w x h; cases h)⟩

theorem witness_PauseExpiries : up.resetAsserted = false ∧ (∀ n, up.surveyOf .A ≠ .waiting (some ⟨n, false⟩))
    ∧ (up.setSurvey .A (.waiting (some ⟨0, false⟩))).surveyOf .A = .waiting (some ⟨0, false⟩)
    ∧ up.survey.mode = .continuous ∧ up.supply.condition = .normal ∧ up.profile.arrangement = .parallel
    ∧ (up.radio .A).state = .ready :=
  ⟨rfl, (by intro n h; cases h), rfl, rfl, rfl, rfl, rfl⟩

/-- Both radios WAITING under a shared pause, arrangement ALTERNATE. -/
def resting : State :=
  { up with
    profile := { up.profile with arrangement := .alternate }
    survey := { up.survey with states := ⟨.waiting none, .waiting none⟩, shared := some ⟨0, false⟩, last := some .B } }

theorem witness_PauseExpiries_shared : resting.resetAsserted = false ∧ resting.survey.shared = some ⟨0, false⟩
    ∧ (∀ n, up.survey.shared ≠ some ⟨n, false⟩) ∧ Radio.A = (resting.survey.last.map otherRadio).getD .A
    ∧ resting.survey.mode = .continuous ∧ resting.supply.condition ≠ .critical ∧ resting.profile.arrangement = .alternate
    ∧ ∀ r, (resting.radio r).state = .ready ∧ ∃ p, resting.surveyOf r = .waiting p :=
  ⟨rfl, rfl, (by intro n h; cases h), rfl, rfl, by decide, rfl, by intro r; cases r <;> exact ⟨rfl, none, rfl⟩⟩

/-! ### The reach table's timers, announcements, faults, silence -/

theorem witness_AgeThresholds : up.resetAsserted = false ∧ (place 47 (cell .A) up).entry 47 = some (cell .A)
    ∧ (cell .A).pin = false ∧ (cell .A).state = .ranked .steady
    ∧ max (cell .A).age (up.profile.fade * 1000) < up.profile.lost * 1000
    ∧ (cell .A).age < 4 * (up.profile.lost * 1000) ∧ 0 < up.profile.lost := by decide +kernel

theorem witness_AgeThresholds_none (i : Nat) : ∀ e, up.entry i = some e → e.pin = true := by
  intro e h
  rw [show up.entry i = State.reset.entry i from rfl, entry_reset] at h
  cases h

theorem witness_TableTimers : (up.table.silentHold.get .A = none)
    ∧ ((run (.silenceTimerExpiry .A) up).table.silentHold.get .A = some 0)
    ∧ (place 5 { cell .A with excludedFor := some 1 } up).entry 5 = some { cell .A with excludedFor := some 1 }
    ∧ up.call.state ≠ .seeking ∧ up.call.state ≠ .placing ∧ up.call.state ≠ .recovering := by decide +kernel

theorem witness_Announce : up.Listens (.radio .A) ∧ up.linkCheck.get .A = none ∧ [2, 5, 2, 3] ≠ []
    ∧ [2, 5, 2, 3].length ≤ 4 ∧ (∀ g ∈ [2, 5, 2, 3], 2 ≤ g ∧ g ≤ 5) ∧ up.call.attempts = [] ∧ up.call.part = none
    ∧ 0 < up.profile.lost ∧ 4 < [2, 3, 4, 5, 2].length ∧ (∃ g ∈ [2, 6], g < 2 ∨ 5 < g) :=
  ⟨listens_up _, rfl, by simp, by decide, by decide, rfl, rfl, by decide, by decide, by decide⟩

/-- Radio A STARTING. -/
def starting : State := run (.announce (.radio .A) [4] 7) State.reset

theorem witness_ModuleStatusAndStart : starting.Speaks .A ∧ ((starting.heardOn .A).radio .A).state = .starting
    ∧ (starting.heardOn .A).call.state = .idle ∧ ((starting.heardOn .A).radio .A).state ≠ .fault
    ∧ (starting.heardOn .A).call.attempts = [] ∧ (starting.heardOn .A).call.part = none ∧ starting.resetAsserted = false
    ∧ (starting.radio .A).start ≠ none ∧ (up.radio .A).start = none ∧ ((up.heardOn .A).radio .A).state ≠ .starting
    ∧ up.Speaks .A ∧ (((raise .A .fault up).heardOn .A).radio .A).state = .fault := by
  refine ⟨⟨⟨?_, ?_⟩, ?_, ?_⟩, ?_, ?_, ?_, ?_, ?_, ?_, ?_, ?_, ?_, speaks_up _, ?_⟩ <;> decide +kernel

/-- The same with the set mode PAUSED, under ALTERNATE, and radio A WAITING after radio B's survey. -/
def startingWaiting : State :=
  ({ starting with profile := { starting.profile with arrangement := .alternate } } : State).mapSurvey fun c =>
    { c with mode := .paused, states := ⟨.waiting none, .waiting none⟩, shared := some ⟨120000, true⟩ }

theorem witness_ModuleStatusAndStart_waiting : startingWaiting.Speaks .A
    ∧ ((startingWaiting.heardOn .A).radio .A).state = .starting ∧ (startingWaiting.heardOn .A).call.state = .idle
    ∧ (startingWaiting.heardOn .A).surveyOf .A = .waiting none ∧ (startingWaiting.heardOn .A).survey.urgent = false
    ∧ (startingWaiting.heardOn .A).survey.mode = .paused ∧ (starting.heardOn .A).survey.mode = .continuous
    ∧ (starting.heardOn .A).surveyOf .A = .due ∧ (starting.heardOn .A).supply.condition = .normal
    ∧ (starting.heardOn .A).profile.arrangement = .parallel := by
  refine ⟨⟨⟨?_, ?_⟩, ?_, ?_⟩, ?_, ?_, ?_, ?_, ?_, ?_, ?_, ?_, ?_⟩ <;> decide +kernel

/-- R78: radio A comes to READY from STARTING, DUE at once; radio B stays WAITING under the shared pause. -/
theorem test_moduleStatus_due : (run (.moduleStatus (.radio .A) 1 0) startingWaiting).survey.states = ⟨.due, .waiting none⟩
    ∧ (run (.moduleStatus (.radio .A) 1 0) startingWaiting).survey.shared = some ⟨120000, true⟩ := by decide +kernel

theorem witness_SilenceExpiry : up.resetAsserted = false ∧ (State.reset.radio .A).silence = none
    ∧ (up.radio .A).silence ≠ none ∧ up.call.attempts = [] ∧ up.call.part = none := by decide

/-! ### Cell reports and orders -/

theorem takes_up (r : Radio) : up.takesReports r := by cases r <;> exact ⟨by decide, by decide⟩

theorem witness_CellReportChecks : up.Speaks .A ∧ 6 < 7 ∧ 1 ≤ 6 ∧ 6 ≤ 6 ∧ up.takesReports .A
    ∧ (raise .A .snooze up).Speaks .A ∧ (((raise .A .snooze up).heardOn .A).radio .A).state = .snooze :=
  ⟨speaks_up _, by decide, by decide, by decide, takes_up _, ⟨⟨rfl, rfl⟩, rfl, by decide⟩, rfl⟩

theorem names_up (x : RawReport) (hg : x.generation = 4 ∨ x.generation = 5) (hc : x.cell ≤ 268435455)
    (hn : x.network ≤ 999999) : namesCell ((up.heardOn .A).radio .A) x := by
  refine ⟨⟨⟨false, false, true, true⟩, rfl, ?_⟩, hc, hn⟩
  rcases hg with h | h <;> rw [h] <;> rfl

theorem witness_CellReportChecks_drops : namesCell ((up.heardOn .A).radio .A) { report with level := -201 }
    ∧ namesCell ((up.heardOn .A).radio .A) { report with level := 1 }
    ∧ namesCell ((up.heardOn .A).radio .A) { report with level := 0, quality := 100 }
    ∧ namesCell ((up.heardOn .A).radio .A) { report with level := -140, quality := 20 }
    ∧ namesCell ((up.heardOn .A).radio .A) { report with level := -200, quality := 98 }
    ∧ ¬ namesCell ((up.heardOn .A).radio .A) { report with cell := 268435456 }
    ∧ ¬ namesCell ((up.heardOn .A).radio .A) { report with generation := 3 } := by
  refine ⟨names_up _ (.inl rfl) (by decide) (by decide), names_up _ (.inl rfl) (by decide) (by decide),
    names_up _ (.inl rfl) (by decide) (by decide), names_up _ (.inl rfl) (by decide) (by decide),
    names_up _ (.inl rfl) (by decide) (by decide), ?_, ?_⟩
  · rintro ⟨-, h, -⟩; revert h; decide
  · rintro ⟨⟨g, h, k⟩, -⟩
    have : g = ⟨false, false, true, true⟩ := by
      have e : ((up.heardOn .A).radio .A).generations = some ⟨false, false, true, true⟩ := rfl
      rw [e] at h; cases h; rfl
    subst this
    cases k

theorem witness_ScoreFormula : 2 ≤ (cell .A).generation ∧ (cell .A).generation ≤ 5 := by decide

theorem passes_report : passesChecks ((up.heardOn .A).radio .A) report :=
  ⟨names_up _ (.inl rfl) (by decide) (by decide), by decide, by decide, by decide, by decide⟩

/-- The state with the reported cell in one slot, in some entry state. -/
def known (v : EntryState) : State := place 5 { cell .A with state := v } up

theorem witness_CellReportTaken (v : EntryState) : (known v).Speaks .A ∧ (known v).takesReports .A
    ∧ passesChecks (((known v).heardOn .A).radio .A) report ∧ ((known v).heardOn .A).call.state = .idle
    ∧ ((known v).heardOn .A).entry 5 = some { cell .A with state := v }
    ∧ Entry.key { cell .A with state := v } = (.A, report.network, report.generation, report.cell)
    ∧ (∀ j f, ((known v).heardOn .A).entry j = some f → f.key = Entry.key { cell .A with state := v } → j = 5)
    ∧ (cell .A).reports ≤ 255 := by
  have he : ∀ j, ((known v).heardOn .A).entry j = if j = 5 then some { cell .A with state := v } else none := by
    intro j
    rw [show ((known v).heardOn .A).entry j = (known v).entry j from rfl]
    unfold known
    rw [entry_place _ _ _ (by decide), show up.entry j = State.reset.entry j from rfl, entry_reset]
  have hr : RadioState.ready ≠ .off ∧ RadioState.ready ≠ .snooze ∧ RadioState.ready ≠ .fault := by decide
  refine ⟨⟨⟨rfl, rfl⟩, rfl, hr.1⟩, ⟨hr.2.1, hr.2.2⟩, passes_report, rfl, ?_, rfl, ?_, by decide⟩
  · rw [he, if_pos rfl]
  · intro j f hj _
    rw [he] at hj
    split at hj
    · assumption
    · cases hj

theorem witness_CellReportTaken_new : up.Speaks .A ∧ up.takesReports .A ∧ passesChecks ((up.heardOn .A).radio .A) report
    ∧ (up.heardOn .A).call.state = .idle ∧ 0 < 48
    ∧ (∀ j e, (up.heardOn .A).entry j = some e → e.key ≠ (.A, report.network, report.generation, report.cell))
    ∧ (up.heardOn .A).supply.condition ≠ .critical ∧ (up.heardOn .A).entry 0 = none
    ∧ (∀ j, j < 0 → (up.heardOn .A).entry j ≠ none) ∧ (up.heardOn .A).prefs.Sound := by
  refine ⟨speaks_up _, takes_up _, passes_report, rfl, by decide, ?_, by decide, entry_reset 0, ?_, sound_up.table.1⟩
  · intro j e h
    rw [show (up.heardOn .A).entry j = State.reset.entry j from rfl, entry_reset] at h
    cases h
  · intro j h; omega

/-- Every slot holds an entry of radio B; slot 47 alone is unpinned. -/
def full (v : Entry) : State :=
  { up with table := { up.table with slots :=
      (Vector.replicate 48 (some { cell .B with pin := true })).set 47 (some v) } }

theorem entry_full (v : Entry) (j : Nat) : ((full v).heardOn .A).entry j
    = if j = 47 then some v else if j < 48 then some { cell .B with pin := true } else none := by
  rw [show ((full v).heardOn .A).entry j = (full v).entry j from rfl]
  unfold full State.entry slotAt
  simp only [Vector.toList_set, Vector.toList_replicate, List.getElem?_set, List.length_replicate, List.getElem?_replicate]
  by_cases h : j = 47
  · subst h; rfl
  · rw [if_neg (Ne.symm h), if_neg h]
    split <;> rfl

theorem witness_CellReportFull (v : Entry) (hv : v.radio = .B) (_hp : v.pin = false) : (full v).Speaks .A
    ∧ (full v).takesReports .A ∧ passesChecks (((full v).heardOn .A).radio .A) report
    ∧ ((full v).heardOn .A).call.state = .idle ∧ ((full v).heardOn .A).prefs.Sound
    ∧ (∀ j e, ((full v).heardOn .A).entry j = some e → e.key ≠ (.A, report.network, report.generation, report.cell))
    ∧ (∀ j, j < 48 → ((full v).heardOn .A).entry j ≠ none)
    ∧ ((full v).heardOn .A).entry 47 = some v
    ∧ (∀ j e, j ≠ 47 → ((full v).heardOn .A).entry j = some e → e.pin = true)
    ∧ (∀ j q, ((full v).heardOn .A).prefs.at j = some q → q.code ≠ report.network) := by
  have hr : RadioState.ready ≠ .off ∧ RadioState.ready ≠ .snooze ∧ RadioState.ready ≠ .fault := by decide
  refine ⟨⟨⟨rfl, rfl⟩, rfl, hr.1⟩, ⟨hr.2.1, hr.2.2⟩, passes_report, rfl, sound_up.table.1, ?_, ?_, ?_, ?_, ?_⟩
  · intro j e h
    rw [entry_full] at h
    have hr : e.radio = .B := by
      split at h
      · cases h; exact hv
      · split at h
        · cases h; rfl
        · cases h
    intro hk
    have := congrArg Prod.fst hk
    rw [show e.key.1 = e.radio from rfl, hr] at this
    cases this
  · intro j hj
    rw [entry_full]
    by_cases h : j = 47
    · rw [if_pos h]; simp
    · rw [if_neg h, if_pos hj]; simp
  · rw [entry_full, if_pos rfl]
  · intro j e hj h
    rw [entry_full, if_neg hj] at h
    split at h
    · cases h; rfl
    · cases h
  · intro j q h
    rw [show ((full v).heardOn .A).prefs.at j = State.reset.prefs.at j from rfl, prefs_reset] at h
    cases h

theorem witness_CellReportFull_lost : ({ cell .B with state := .lost, score := 1 } : Entry).radio = .B
    ∧ ({ cell .B with state := .lost, score := 1 } : Entry).pin = false ∧ (1 : Nat) < 496 := by decide

theorem witness_TakeOrder : up.Speaks .A ∧ ((up.heardOn .A).radio .A).queue = []
    ∧ (up.setQueue .A [.power .snooze]).Speaks .A ∧ (((up.setQueue .A [.power .snooze]).heardOn .A).radio .A).queue
      = .power .snooze :: [] ∧ ((up.setQueue .A [.power .snooze]).heardOn .A).call.part = none :=
  ⟨speaks_up _, rfl, ⟨⟨rfl, rfl⟩, rfl, by decide⟩, rfl, rfl⟩

/-! ### The call -/

/-- One cell of radio A in slot 5. -/
def one : State := place 5 (cell .A) up

theorem none_up (i : Nat) (e : Entry) : ¬ up.Candidate i e := by
  rintro ⟨h, -⟩
  rw [show up.entry i = State.reset.entry i from rfl, entry_reset] at h
  cases h

theorem first_one : one.FirstOf (eligibleOf one.Candidate) 5 (cell .A) := by
  refine ⟨⟨⟨?_, ⟨.steady, rfl⟩, .inl rfl, rfl, ?_⟩, .inl (by decide)⟩, 0, ?_, by intro m j f h; omega⟩
  · decide +kernel
  · intro a h; cases h
  · decide +kernel

theorem chooses_one : one.Chooses 5 (cell .A) :=
  .inl ⟨(by rintro r ⟨h, -⟩; cases h), first_one⟩

theorem witness_CallStart_none : up.Listens .station ∧ (up.opened .station).call.state = .idle
    ∧ (up.opened .station).call.attempts = [] ∧ (up.opened .station).call.part = none
    ∧ ∀ i e, ¬ (up.opened .station).Candidate i e := ⟨listens_up _, rfl, rfl, rfl, none_up⟩

theorem witness_CallStart_one : one.Listens .station ∧ (one.opened .station).call.state = .idle
    ∧ (one.opened .station).call.attempts = [] ∧ (one.opened .station).call.part = none
    ∧ (one.opened .station).FirstOf (eligibleOf (one.opened .station).Candidate) 5 (cell .A) :=
  ⟨⟨rfl, rfl⟩, rfl, rfl, rfl, first_one⟩

theorem witness_CallStart_active : (placing .taken).Listens .station
    ∧ ((placing .taken).opened .station).call.state ≠ .idle ∧ ((placing .taken).opened .station).call.state ≠ .callback :=
  ⟨⟨rfl, rfl⟩, by decide, by decide⟩

/-- CALLBACK with a part that holds radio A through no entry, and an offer of radio B. -/
def waiting (o : Option Offer) : State :=
  (inCall .callback [] up).mapCall fun c => { c with part := some ⟨600000, 599999, true, some ⟨.A, 26201, 4, 77, none⟩, o⟩ }

theorem none_waiting (o : Option Offer) (i : Nat) (e : Entry) : ¬ (waiting o).Candidate i e := by
  rintro ⟨h, -⟩
  rw [show (waiting o).entry i = State.reset.entry i from rfl, entry_reset] at h
  cases h

theorem witness_CallStart_callback : (waiting (some ⟨.B, .answering, none⟩)).Listens .station ∧ ∃ p,
    ((waiting (some ⟨.B, .answering, none⟩)).opened .station).call.state = .callback
    ∧ ((waiting (some ⟨.B, .answering, none⟩)).opened .station).call.attempts = []
    ∧ ((waiting (some ⟨.B, .answering, none⟩)).opened .station).call.part = some p
    ∧ (∀ o, p.offer = some o → o.ring = .answering)
    ∧ ∀ i e, ¬ ((waiting (some ⟨.B, .answering, none⟩)).opened .station).Candidate i e :=
  ⟨⟨rfl, rfl⟩, _, rfl, rfl, rfl, (by intro o h; cases h; rfl), none_waiting _⟩

theorem witness_CallEnd_idle : up.Listens .station ∧ (up.opened .station).call.state = .idle
    ∧ (callback none).Listens .station ∧ ((callback none).opened .station).call.state = .callback
    ∧ (∀ p o, ((callback none).opened .station).call.part = some p → p.offer = some o → o.ring = .ringing)
    ∧ (inCall .ending [] up).Listens .station ∧ ((inCall .ending [] up).opened .station).call.state = .ending :=
  ⟨listens_up _, rfl, ⟨rfl, rfl⟩, rfl, (by intro p o h k; cases h; cases k), ⟨rfl, rfl⟩, rfl⟩

/-- A call that was connected through radio A and looks for an entry. -/
def sought : State :=
  (inCall .seeking [] one).mapCall fun c => { c with everConnected := true, note := some ⟨.A, 5, 26201, 4, 77⟩ }

theorem witness_CallEnd : sought.Listens .station ∧ (sought.opened .station).call.state = .seeking
    ∧ (sought.opened .station).call.part = none
    ∧ ((sought.opened .station).call.lineA = false ∧ (sought.opened .station).call.lineB = false)
    ∧ (sought.opened .station).journal.records.length < 31 ∧ (sought.opened .station).call.attempts = []
    ∧ (sought.opened .station).call.everConnected = true ∧ 0 < (sought.opened .station).profile.window
    ∧ (sought.opened .station).call.note = some ⟨.A, 5, 26201, 4, 77⟩
    ∧ ((sought.opened .station).radio .A).state = .ready
    ∧ (inCall .seeking [] up).Listens .station ∧ (inCall .seeking [] up).call.everConnected = false :=
  ⟨⟨rfl, rfl⟩, rfl, rfl, ⟨rfl, rfl⟩, by decide, rfl, rfl, by decide, rfl, rfl, ⟨rfl, rfl⟩, rfl⟩

theorem witness_CallEnd_cancel : (placing .taken).Listens .station
    ∧ ((placing .taken).opened .station).call.state = .placing ∧ ((placing .taken).opened .station).call.part = none
    ∧ ((placing .taken).opened .station).call.attempts = [attemptA .taken] ∧ (attemptA .taken).disposition = none
    ∧ (∀ b c d e f, .attempt 41 b c d e f ∉ (((placing .taken).opened .station).radio .A).queue)
    ∧ (((placing .taken).opened .station).radio .A).state = .attempting :=
  ⟨⟨rfl, rfl⟩, rfl, rfl, rfl, rfl, (by intro b c d e f h; cases h), rfl⟩

/-- An attempt whose order is still queued. -/
def queued : State :=
  ((placing .ordered).setQueue .A [.attempt 41 5 26201 4 77 100]).mapRadio .A fun c => { c with take := some 0 }

theorem witness_CallEnd_withdraw : queued.Listens .station ∧ (queued.opened .station).call.state = .placing
    ∧ (queued.opened .station).call.attempts = [attemptA .ordered] ∧ (attemptA .ordered).connected = none
    ∧ ((queued.opened .station).radio .A).state = .attempting
    ∧ .attempt 41 5 26201 4 77 100 ∈ ((queued.opened .station).radio .A).queue
    ∧ (queued.opened .station).call.everConnected = false :=
  ⟨⟨rfl, rfl⟩, rfl, rfl, rfl, rfl, by decide, rfl⟩

theorem witness_IncomingAndAnswer : up.Speaks .B ∧ (up.heardOn .B).call.state ≠ .callback
    ∧ (callback none).Speaks .B ∧ ((callback none).heardOn .B).call.state = .callback
    ∧ ((callback none).heardOn .B).call.part = some (partA none) ∧ (partA none).offer = none
    ∧ (((callback none).heardOn .B).radio .B).state = .ready
    ∧ (callback (some ⟨.B, .ringing, none⟩)).Speaks .A ∧ (partA (some ⟨.B, .ringing, none⟩)).offer ≠ none
    ∧ (raise .B .snooze (callback none)).Speaks .B
    ∧ (∀ k, (partA none).held = some k → k.radio ≠ .B)
    ∧ (((raise .B .snooze (callback none)).heardOn .B).radio .B).state ≠ .ready
    ∧ (raise .A .surveying (callback none)).Speaks .A
    ∧ (((raise .A .surveying (callback none)).heardOn .A).radio .A).state = .surveying
    ∧ (∃ k, (partA none).held = some k ∧ k.radio = .A) :=
  ⟨speaks_up _, by decide, ⟨⟨rfl, rfl⟩, rfl, by decide⟩, rfl, rfl, rfl, rfl, ⟨⟨rfl, rfl⟩, rfl, by decide⟩, by decide,
    ⟨⟨rfl, rfl⟩, rfl, by decide⟩, (by intro k h; cases h; decide), by decide, ⟨⟨rfl, rfl⟩, rfl, by decide⟩, rfl, _, rfl, rfl⟩

/-- CONNECTED by a callback leg on radio B. -/
def leg : State :=
  (inCall .connected [] up).mapCall fun c => { c with part := some ⟨600000, 5, false, none, some ⟨.B, .answering, some ⟨3, 0⟩⟩⟩ }

theorem witness_IncomingAndAnswer_answer : (callback (some ⟨.B, .ringing, none⟩)).Listens .station
    ∧ ((callback (some ⟨.B, .ringing, none⟩)).opened .station).call.state = .callback
    ∧ ((callback (some ⟨.B, .ringing, none⟩)).opened .station).call.part = some (partA (some ⟨.B, .ringing, none⟩))
    ∧ (callback (some ⟨.B, .answering, none⟩)).Listens .station
    ∧ ((callback (some ⟨.B, .answering, none⟩)).opened .station).call.part = some (partA (some ⟨.B, .answering, none⟩))
    ∧ up.Listens .station ∧ (up.opened .station).call.state = .idle ∧ (up.opened .station).call.part = none
    ∧ (callback none).Listens .station ∧ (partA none).offer = none :=
  ⟨⟨rfl, rfl⟩, rfl, rfl, ⟨rfl, rfl⟩, rfl, listens_up _, rfl, rfl, ⟨rfl, rfl⟩, rfl⟩

/-! ### Attempts -/

theorem speaks_placing (v : AttemptStep) : (placing v).Speaks .A :=
  ⟨⟨rfl, rfl⟩, rfl, show RadioState.attempting ≠ .off by decide⟩

theorem heard_placing (v : AttemptStep) : ((placing v).heardOn .A).call.attempts = [attemptA v]
    ∧ (((placing v).heardOn .A).call.attempts.map (·.radio)).Nodup := ⟨rfl, List.nodup_singleton _⟩

/-- The attempt with a disposition. -/
def disposed (d : Disposition) : State :=
  (placing .taken).mapCall fun c => { c with attempts := [{ attemptA .taken with disposition := some d }] }

theorem witness_ProgressRefused : (placing .ordered).Speaks .A ∧ 5 < 6 ∧ (3 = 3 ∧ 3 < 4)
    ∧ (∀ p o, ((placing .ordered).heardOn .A).call.part = some p → p.offer = some o → o.radio ≠ .A)
    ∧ ¬ (5 < 5 ∨ ((5 = 3 ∨ 5 = 4) ∧ 3 < 0))
    ∧ (∀ a ∈ ((placing .ordered).heardOn .A).call.attempts, a.number ≠ 40 ∨ a.radio ≠ .A)
    ∧ attemptA .ordered ∈ ((placing .ordered).heardOn .A).call.attempts
    ∧ (attemptA .ordered).step ≠ .taken ∧ (attemptA .ordered).disposition = none
    ∧ (disposed .cancel).Speaks .A ∧ (disposed .surplus).Speaks .A
    ∧ { attemptA .taken with disposition := some .surplus } ∈ ((disposed .surplus).heardOn .A).call.attempts :=
  ⟨speaks_placing _, by decide, by decide, (by intro p o h; cases h), by decide,
    (by intro a h; cases List.mem_singleton.mp h; decide),
    List.mem_singleton.mpr rfl, by decide, rfl, ⟨⟨rfl, rfl⟩, rfl, by decide⟩, ⟨⟨rfl, rfl⟩, rfl, by decide⟩,
    List.mem_singleton.mpr rfl⟩

theorem witness_ProgressMoves (v : AttemptStep) (hv : v = .taken ∨ v = .accepted ∨ v = .alerting) : (placing v).Speaks .A
    ∧ (attemptA v).number ≠ 0 ∧ (attemptA v).radio = .A ∧ (attemptA v).disposition = none
    ∧ ((placing v).heardOn .A).call.attempts = [attemptA v]
    ∧ ((attemptA v).step = .taken ∨ (attemptA v).step = .accepted ∨ (attemptA v).step = .alerting)
    ∧ ((placing v).heardOn .A).call.state = .placing ∧ (((placing v).heardOn .A).radio .A).state = .attempting
    ∧ ((placing v).heardOn .A).call.route = none ∧ ((placing v).heardOn .A).call.part = none :=
  ⟨speaks_placing _, show 41 ≠ 0 by decide, rfl, rfl, rfl, hv, rfl, rfl, rfl, rfl⟩

/-- Two attempts in flight, on the two radios. -/
def pair : State :=
  (raise .B .attempting (placing .alerting)).mapCall fun c =>
    { c with attempts := [attemptA .alerting, { attemptA .taken with number := 42, radio := .B, slot := 6 }] }

theorem witness_ProgressMoves_two : pair.Speaks .A
    ∧ (pair.heardOn .A).call.attempts = [attemptA .alerting, { attemptA .taken with number := 42, radio := .B, slot := 6 }]
    ∧ (pair.heardOn .A).call.state = .placing ∧ ((pair.heardOn .A).radio .A).state = .attempting
    ∧ (pair.heardOn .A).call.route = none ∧ (pair.heardOn .A).call.part = none
    ∧ ((pair.heardOn .A).radio .B).state ≠ .off ∧ ((pair.heardOn .A).radio .B).state ≠ .fault :=
  ⟨⟨⟨rfl, rfl⟩, rfl, by decide⟩, rfl, rfl, rfl, rfl, rfl, by decide, by decide⟩

/-- What the statement asks of a state in which the attempt fails. -/
theorem ready_placing (v : AttemptStep) : (placing v).call.attempts = [attemptA v] ∧ (attemptA v).disposition = none
    ∧ (attemptA v).connected = none ∧ (attemptA v).number ≠ 0 ∧ (placing v).call.state = .placing
    ∧ ((placing v).radio .A).state = .attempting ∧ 0 < (placing v).profile.backoff
    ∧ (placing v).journal.records.length < 32 ∧ (placing v).call.failures ≤ 255
    ∧ (∀ r, (placing v).call.radioFailures.get r ≤ 255) ∧ (placing v).call.part = none :=
  ⟨rfl, rfl, rfl, show 41 ≠ 0 by decide, rfl, rfl, show 0 < 500 by decide, show 0 < 32 by decide, show 0 ≤ 255 by decide,
    (by intro r; cases r <;> exact Nat.zero_le _), rfl⟩

theorem witness_AttemptFails_take : queued.resetAsserted = false ∧ (up.radio .A).take = none
    ∧ queued.call.attempts = [attemptA .ordered] ∧ queued.call.state = .placing ∧ (queued.radio .A).state = .attempting
    ∧ 0 < queued.profile.backoff ∧ queued.journal.records.length < 32 ∧ queued.call.failures ≤ 255
    ∧ (∀ r, queued.call.radioFailures.get r ≤ 255) ∧ queued.call.part = none
    ∧ (queued.radio .A).take ≠ none ∧ (∃ o ∈ (queued.radio .A).queue, o.kind = .attempt)
    ∧ (∀ o ∈ (queued.radio .A).queue, o.kind = .attempt → ∃ b c d e f, o = .attempt 41 b c d e f) := by
  refine ⟨rfl, rfl, rfl, rfl, rfl, by decide, by decide, by decide, (by intro r; cases r <;> decide), rfl, by decide, by decide,
    ?_⟩
  intro o h _
  cases List.mem_singleton.mp (show o ∈ [Order.attempt 41 5 26201 4 77 100] from h)
  exact ⟨_, _, _, _, _, rfl⟩

theorem witness_AttemptFails_deadlines : (placing .taken).resetAsserted = false ∧ (attemptA .taken).setup ≠ none
    ∧ (placing .alerting).resetAsserted = false ∧ (attemptA .alerting).answer ≠ none
    ∧ (∀ a ∈ (placing .alerting).call.attempts, a.number = 41 → a.setup = none)
    ∧ (∀ a ∈ (placing .taken).call.attempts, a.number = 41 → a.answer = none) :=
  ⟨rfl, by decide, rfl, by decide, (by intro a h _; cases List.mem_singleton.mp h; rfl),
    (by intro a h _; cases List.mem_singleton.mp h; rfl)⟩

theorem witness_AttemptFails_entry : (placing .taken).entry 5 = some { cell .A with pin := true }
    ∧ (cell .A).age < (placing .taken).profile.fade * 1000 ∧ (cell .A).age < (placing .taken).profile.lost * 1000
    ∧ (cell .A).credit ≤ 15 := by decide +kernel

theorem witness_AttemptFails_reported (v : AttemptStep) : (placing v).Speaks .A
    ∧ ((placing v).heardOn .A).call.attempts = [attemptA v] ∧ ((placing v).heardOn .A).call.state = .placing
    ∧ (((placing v).heardOn .A).radio .A).state = .attempting ∧ 0 < ((placing v).heardOn .A).profile.backoff
    ∧ ((placing v).heardOn .A).journal.records.length < 32 ∧ ((placing v).heardOn .A).call.part = none :=
  ⟨speaks_placing _, rfl, rfl, rfl, show 0 < 500 by decide, show 0 < 32 by decide, rfl⟩

theorem witness_AttemptFails_silence : (placing .taken).resetAsserted = false ∧ (attemptA .taken).step ≠ .connected
    ∧ ((placing .taken).radio .A).silence ≠ none := ⟨rfl, by decide, by decide⟩

/-- BACKOFF at its last millisecond. -/
def backing (s : State) : State := (inCall .backoff [] s).mapCall fun c => { c with failures := 1, backoff := some 499 }

theorem witness_BackoffAndStagger_backoff : (backing up).resetAsserted = false ∧ up.call.backoff = none
    ∧ (backing up).call.backoff ≠ none ∧ (backing up).call.state = .backoff ∧ (backing up).call.attempts = []
    ∧ (backing up).call.part = none ∧ (∀ i e, ¬ (backing up).Candidate i e) :=
  ⟨rfl, rfl, by decide, rfl, rfl, rfl, none_up⟩

theorem witness_BackoffAndStagger_chooses : (backing one).resetAsserted = false ∧ (backing one).call.backoff ≠ none
    ∧ (backing one).call.state = .backoff ∧ (backing one).call.attempts = [] ∧ (backing one).call.part = none
    ∧ (backing one).Chooses 5 (cell .A) := ⟨rfl, by decide, rfl, rfl, rfl, chooses_one⟩

/-- Radio A has failed twice and was the last to fail; each radio has an entry, and A's has the higher score. -/
def failing : State :=
  (backing (place 6 { cell .B with score := 400 } one)).mapCall fun c =>
    { c with lastFailed := some .A, radioFailures := ⟨2, 0⟩ }

theorem witness_BackoffAndStagger_turns : failing.TurnsFrom .A ∧ failing.Chooses 6 { cell .B with score := 400 } := by
  have hc : failing.Candidate 6 { cell .B with score := 400 } :=
    ⟨by decide +kernel, ⟨.steady, rfl⟩, .inl rfl, rfl, by intro a h; cases h⟩
  have ht : failing.TurnsFrom .A := ⟨rfl, by decide, 6, _, ⟨hc, .inl (by decide)⟩, rfl⟩
  refine ⟨ht, .inr ⟨.A, ht, ⟨⟨hc, .inl (by decide)⟩, rfl⟩, 1, by decide +kernel, ?_⟩⟩
  intro m j f hm hr hp
  have h0 : failing.ranked[0]? = some (5, cell .A) := by decide +kernel
  rw [show m = 0 by omega, h0] at hr
  cases hr
  exact absurd hp.2 (by decide)

/-- A lone attempt with the stagger timer running. -/
def staggered (s : State) : State :=
  (inCall .placing [attemptA .accepted] (raise .A .attempting s)).mapCall fun c => { c with stagger := .counting 5999 }

theorem witness_BackoffAndStagger_opened : (staggered one).resetAsserted = false ∧ (∀ n, up.call.stagger ≠ .counting n)
    ∧ (staggered one).call.stagger = .counting 5999 ∧ (staggered one).call.attempts = [attemptA .accepted]
    ∧ (attemptA .accepted).disposition = none ∧ (attemptA .accepted).step = .accepted
    ∧ (∀ i e, (staggered one).Candidate i e → e.radio ≠ otherRadio .A) := by
  refine ⟨rfl, (by intro n h; cases h), rfl, rfl, rfl, rfl, ?_⟩
  rintro i e ⟨h, -⟩
  rw [show (staggered one).entry i = one.entry i from rfl] at h
  unfold one at h
  rw [entry_place _ _ _ (by decide), show up.entry i = State.reset.entry i from rfl, entry_reset] at h
  split at h <;> cases h
  decide

theorem witness_BackoffAndStagger_second : (staggered two).resetAsserted = false
    ∧ (staggered two).call.stagger = .counting 5999 ∧ (staggered two).call.state = .placing
    ∧ (staggered two).call.part = none
    ∧ (staggered two).ChoosesOn (otherRadio .A) 6 { cell .B with score := 500 } := by
  refine ⟨rfl, rfl, rfl, rfl, ⟨⟨⟨?_, ⟨.steady, rfl⟩, .inl rfl, rfl, ?_⟩, rfl⟩, .inl (by decide)⟩, 0, ?_,
    by intro m j f h; omega⟩
  · decide +kernel
  · intro a h
    cases List.mem_singleton.mp h
    decide
  · decide +kernel

theorem witness_CallTimers : (inCall .ending [] up).resetAsserted = false ∧ up.call.ending = none
    ∧ ((inCall .ending [] up).mapCall fun c => { c with ending := some 4999 }).call.ending ≠ none
    ∧ ((inCall .ending [attemptA .taken] (raise .A .attempting up)).mapCall fun c => { c with ending := some 4999 }).call.ending
      ≠ none
    ∧ (inCall .ending [attemptA .taken] (raise .A .attempting up)).call.everConnected = false
    ∧ (inCall .ending [attemptA .taken] (raise .A .attempting up)).call.part = none
    ∧ (attemptA .taken).connected = none
    ∧ ((inCall .ending [attemptA .taken] (raise .A .attempting up)).radio .A).state = .attempting
    ∧ up.call.state ≠ .callback ∧ (callback none).resetAsserted = false ∧ (callback none).call.state = .callback
    ∧ (callback none).call.part = some (partA none) ∧ (partA none).counting = true
    ∧ (partA none).held = some ⟨.A, 26201, 4, 77, some 5⟩ ∧ ((callback none).radio .A).state ≠ .off
    ∧ ((callback none).radio .A).state ≠ .fault :=
  ⟨rfl, rfl, by decide, by decide, rfl, rfl, rfl, rfl, by decide, rfl, rfl, rfl, rfl, rfl, by decide, by decide⟩

/-- The connected leg of radio A, or one under CANCEL in ENDING. -/
def legA (v : CallState) (d : Option Disposition) : State :=
  (inCall v [{ attemptA .connected with connected := some ⟨0, 0⟩, disposition := d }]
    (place 5 { cell .A with pin := true } (raise .A .inCall up))).mapCall fun c =>
      { c with route := if v = .connected then some .A else none }

theorem witness_LegDropsAndClears_drop : (legA .connected none).Speaks .A
    ∧ ((legA .connected none).heardOn .A).call.attempts = [{ attemptA .connected with connected := some ⟨0, 0⟩ }]
    ∧ (attemptA .connected).number ≠ 0 ∧ (attemptA .connected).radio = .A ∧ (legA .connected none).call.part = none
    ∧ (legA .connected none).journal.records.length < 31 ∧ (legA .connected none).call.state = .connected
    ∧ (((legA .connected none).heardOn .A).radio .A).state = .inCall ∧ (legA .connected none).call.route = some .A
    ∧ (legA .connected none).call.recoveries ≤ 255 ∧ (legA .connected none).call.stagger = .stopped
    ∧ 0 < (legA .connected none).profile.exclusion :=
  ⟨⟨⟨rfl, rfl⟩, rfl, by decide⟩, rfl, by decide, rfl, rfl, by decide, rfl, rfl, rfl, by decide, rfl, by decide⟩

theorem witness_LegDropsAndClears_clear : (legA .ending (some .cancel)).Speaks .A
    ∧ ((legA .ending (some .cancel)).heardOn .A).call.attempts
      = [{ attemptA .connected with connected := some ⟨0, 0⟩, disposition := some .cancel }]
    ∧ (((legA .ending (some .cancel)).heardOn .A).radio .A).state = .inCall
    ∧ (legA .ending (some .cancel)).call.everConnected = false ∧ (disposed .cancel).Speaks .A
    ∧ ((disposed .cancel).heardOn .A).call.attempts = [{ attemptA .taken with disposition := some .cancel }]
    ∧ (((disposed .cancel).heardOn .A).radio .A).state = .attempting :=
  ⟨⟨⟨rfl, rfl⟩, rfl, by decide⟩, rfl, rfl, rfl, ⟨⟨rfl, rfl⟩, rfl, by decide⟩, rfl, rfl⟩

theorem witness_CallbackLeg_offer : (callback (some ⟨.B, .ringing, none⟩)).Speaks .B
    ∧ ((callback (some ⟨.B, .ringing, none⟩)).heardOn .B).call.part = some (partA (some ⟨.B, .ringing, none⟩))
    ∧ (callback (some ⟨.B, .answering, none⟩)).Speaks .B
    ∧ ((callback (some ⟨.B, .answering, none⟩)).heardOn .B).call.route = none
    ∧ (((callback (some ⟨.B, .answering, none⟩)).heardOn .B).radio .B).state = .ready :=
  ⟨⟨⟨rfl, rfl⟩, rfl, by decide⟩, rfl, ⟨⟨rfl, rfl⟩, rfl, by decide⟩, rfl, rfl⟩

/-- A callback leg of radio B is up beside radio A's hold. -/
def legB (v : CallState) : State :=
  (raise .B .inCall (callback (some ⟨.B, .answering, some ⟨0, 0⟩⟩))).mapCall fun c =>
    { c with state := v, route := if v = .connected then some .B else none }

theorem witness_CallbackLeg_up : (legB .connected).Speaks .B ∧ (legB .ending).Speaks .B
    ∧ ((legB .connected).heardOn .B).call.part = some (partA (some ⟨.B, .answering, some ⟨0, 0⟩⟩))
    ∧ ((legB .connected).heardOn .B).call.attempts = [] ∧ (((legB .connected).heardOn .B).radio .B).state = .inCall
    ∧ ((legB .connected).heardOn .B).call.route = some .B ∧ ((legB .ending).heardOn .B).call.route = none
    ∧ ((legB .ending).heardOn .B).call.lineA = false ∧ ((legB .ending).heardOn .B).call.lineB = false
    ∧ ((legB .connected).heardOn .B).journal.records.length < 31 :=
  ⟨⟨⟨rfl, rfl⟩, rfl, by decide⟩, ⟨⟨rfl, rfl⟩, rfl, by decide⟩, rfl, rfl, rfl, rfl, rfl, rfl, rfl, by decide⟩

/-! ### Orders, kind by kind -/

/-- A radio in a state with one order queued. -/
def holding (v : RadioState) (o : Order) : State := (raise .A v up).setQueue .A [o]

/-- One order of each kind. -/
def anyOrder : List Order :=
  [.attempt 41 5 26201 4 77 100, .cancel 41 .callerEnd, .callback .answer, .survey 8000 false, .power .snooze, .power .wake]

theorem witness_TakeOrder_kinds : ∀ v ∈ [RadioState.starting, .ready, .surveying, .attempting, .inCall, .snooze, .fault],
    ∀ o ∈ anyOrder, ((holding v o).radio .A).state ≠ .off ∧ (((holding v o).heardOn .A).radio .A).queue = [o]
    ∧ (((holding v o).heardOn .A).radio .A).state = v ∧ ((holding v o).heardOn .A).call.part = none := by decide +kernel

theorem witness_TakeOrder_speaks : (holding .snooze (.power .wake)).Speaks .A := ⟨⟨rfl, rfl⟩, rfl, by decide⟩

/-! ### States in which more than one thing is in flight -/

/-- Every count of this state, in which nothing has been heard and no timer but the silence timers runs, is far from its
length. -/
theorem witness_IdleMillisecond_quiet : up.NothingDue ∧ up.pending = [] ∧ up.resetAsserted = false := by
  refine ⟨⟨?_, ?_, ?_, ?_, ?_, ?_, ?_, ?_, ?_, ?_, ?_, ?_, ?_, ?_, ?_, ?_, ?_, ?_⟩, rfl, rfl⟩
  · intro i e h; rw [show up.entry i = State.reset.entry i from rfl, entry_reset] at h; cases h
  · intro i e n h; rw [show up.entry i = State.reset.entry i from rfl, entry_reset] at h; cases h
  · intro r n h; cases r <;> cases h
  · decide
  · intro l n h; cases l <;> cases h
  · intro r n h; cases r <;> cases h
  · intro r n h; cases r <;> cases h
  · intro r n h; cases r <;> cases h <;> decide
  · intro r n h; cases r <;> cases h
  · intro r u w x h; cases r <;> cases h
  · intro r n h; cases r <;> cases h
  · intro n h; cases h
  · intro n h; cases h
  · intro n h; cases h
  · intro a h; cases h
  · intro a h; cases h
  · intro n h; cases h
  · intro p h; cases h

theorem linked_up : up.Linked where
  pins := by
    intro i
    constructor
    · rintro ⟨e, h, -⟩; rw [show up.entry i = State.reset.entry i from rfl, entry_reset] at h; cases h
    · rintro (⟨a, h, -⟩ | ⟨p, k, h, -⟩) <;> cases h
  targets := by intro a h; cases h
  heldSlot := by intro p k i e h; cases h
  attempting := by
    intro r
    constructor
    · intro h; cases r <;> cases h
    · rintro ⟨a, h, -⟩; cases h
  inCall := by
    intro r
    constructor
    · intro h; cases r <;> cases h
    · rintro (⟨a, h, -⟩ | ⟨p, o, h, -⟩) <;> cases h
  surveying := by
    intro r
    constructor
    · intro h; cases r <;> cases h
    · rintro ⟨u, w, x, h⟩; cases r <;> cases h
  route := by
    intro r
    constructor
    · intro h; cases h
    · rintro ⟨h, -⟩; cases h
  attempts := show up.call.attempts = [] from rfl
  part := show up.call.state ≠ .callback by decide
  members := by intro p h; cases h
  queued := by intro r b c d e f n h; cases r <;> cases h
  ordered := by intro a h; cases h
  deadlines := by intro a h; cases h
  backoff := by constructor <;> intro h; exacts [absurd rfl h, absurd h (by decide)]
  ending := by constructor <;> intro h; exacts [absurd rfl h, absurd h (by decide)]
  awake := by intro a h; cases h
  noted := by intro n h; exact absurd rfl h

theorem witness_StepKeepsLinked : up.Sound ∧ up.Linked ∧ ∃ t, step up = .next t := ⟨sound_up, linked_up, _, rfl⟩

/-- Radio A SILENT, under a silence recovery mode. -/
def silentA (v : Recovery) : State := { raise .A .silent up with profile := { up.profile with recovery := v } }

theorem witness_HeardAndNoOp_silent : ((silentA .resume).radio .A).state = .silent ∧ (silentA .resume).profile.recovery = .resume
    ∧ (silentA .resume).call.state = .idle ∧ ((silentA .restart).radio .A).state = .silent
    ∧ (silentA .restart).profile.recovery = .restart ∧ (silentA .restart).supply.condition = .normal := by decide

/-- A silence timer and a silent-hold time at the largest values that new times can reach at once. -/
def profiled : State :=
  { up with
    radios := ⟨{ up.radios.a with silence := some 256 }, { up.radios.b with silence := some 255 }⟩
    table := { up.table with silentHold := ⟨none, some 10000⟩ } }

theorem witness_SetProfile_silence : profiled.Listens .station ∧ profiled.call.state = .idle ∧ profiled.call.attempts = []
    ∧ profiled.call.part = none ∧ (profiled.radio .A).silence = some 256 ∧ (profiled.radio .B).silence = some 255
    ∧ max 8 (min 15 0) = 8 ∧ 2 ^ 8 ≤ 256 ∧ ¬ 2 ^ 8 ≤ 255 ∧ profiled.table.silentHold.get .B = some 10000
    ∧ max (max 10 (min 600 0)) (max 2 (min 60 0) + 1) * 1000 ≤ 10000 := by
  refine ⟨⟨rfl, rfl⟩, ?_⟩
  decide

/-- A FADING entry and a STEADY one, both of an age at which the smallest times make them LOST. -/
def aged (g : Heard) : State := place 5 { cell .A with state := .ranked g, age := 39999 } up

theorem witness_SetProfile_lost : (aged .fading).entry 5 = some { cell .A with state := .ranked .fading, age := 39999 }
    ∧ (aged .steady).entry 5 = some { cell .A with state := .ranked .steady, age := 39999 } ∧ (cell .A).pin = false
    ∧ 10 * 1000 ≤ 39999 ∧ 39999 < 4 * (10 * 1000) ∧ ((aged .fading).radio .A).silence = some 9 ∧ ¬ 2 ^ 8 ≤ 9 := by
  decide +kernel

/-- A supply condition, with the line that gives it qualified. -/
def under (c : Condition) (s : State) : State := { s with supply := ⟨⟨true, true, none⟩, ⟨false, false, none⟩, c⟩ }

theorem witness_SnoozeTest : (∀ r, (up.radio r).state = .off ∨ (up.radio r).state = .fault → (up.radio r).queue = [])
    ∧ (under .low two).supply.condition = .low ∧ (under .low two).call.state = .idle
    ∧ ((under .low two).radio .A).state = .ready ∧ .power .snooze ∉ ((under .low two).radio .A).queue
    ∧ ((raise .A .snooze (under .low two)).radio .A).state = .snooze
    ∧ ((raise .B .silent (raise .A .snooze (under .low two))).radio .B).state = .silent
    ∧ ((raise .B .snooze (raise .A .snooze (under .low two))).radio .B).state = .snooze
    ∧ (under .critical up).supply.condition = .critical ∧ (under .critical (callback none)).call.part ≠ none := by
  refine ⟨?_, ?_⟩
  · intro r h; cases r <;> rfl
  · decide +kernel

/-- Both radios WAITING under pauses of their own, the shorter one B's. -/
def paused : State :=
  { up with survey := { up.survey with states := ⟨.waiting (some ⟨9, false⟩), .waiting (some ⟨8, false⟩)⟩, last := some .A } }

theorem witness_ArrangementChange_profile : paused.Listens .station ∧ paused.call.state = .idle
    ∧ ({ defaults with arrangement := 1 } : ProfileFields).arrangement ≤ 1 ∧ paused.supply.condition = .normal
    ∧ paused.profile.arrangement = .parallel ∧ paused.surveyOf .B = .waiting (some ⟨8, false⟩)
    ∧ (∀ x, paused.surveyOf (otherRadio .B) = .waiting (some x) → 8 < x.remaining)
    ∧ (∀ r n, (paused.radio r).silence = some n → n < 2 ^ 12) ∧ resting.profile.arrangement = .alternate
    ∧ resting.Listens .station := by
  refine ⟨⟨rfl, rfl⟩, rfl, by decide, rfl, rfl, rfl, ?_, ?_, rfl, rfl, rfl⟩
  · intro x h; cases h; decide
  · intro r n h; cases r <;> cases h <;> decide

/-- The same with CRITV or LOWV about to qualify. -/
def pausing (l : Line) : State := paused.setLine l ⟨true, false, some 499⟩

theorem witness_ArrangementChange_supply : (pausing .lowv).resetAsserted = false
    ∧ ((pausing .lowv).supply.line .lowv).timer ≠ none ∧ (pausing .lowv).supply.condition = .normal
    ∧ (run (.qualifyingTimerExpiry .lowv) (pausing .lowv)).supply.condition = .low
    ∧ (pausing .critv).survey.mode = .continuous
    ∧ (run (.qualifyingTimerExpiry .critv) (pausing .critv)).supply.condition = .critical := by decide +kernel

/-- SEEKING with the urgent request, radio A in the middle of a survey. -/
def seeking : State :=
  (inCall .seeking [] surveying).mapSurvey fun c => { c with urgent := true }

/-- SEEKING with the urgent request, radio A STARTING and due. -/
def starts : State := (inCall .seeking [] (raise .A .starting up)).mapSurvey fun c => { c with urgent := true }

theorem barren_up (s : State) (r : Radio) (h : ∀ i, s.entry i = none) : ∀ i e, s.entry i = some e → e.excludedFor ≠ none
    ∨ e.state = .lost ∨ (e.radio ≠ r ∧ ((∀ g, e.state ≠ .ranked g) ∨ ¬ s.Open e.radio)) := by
  intro i e k; rw [h] at k; cases k

theorem witness_UrgentSurveys : seeking.call.state = .seeking ∧ seeking.call.part = none ∧ seeking.survey.urgent = true
    ∧ (seeking.radio .A).state = .surveying ∧ seeking.surveyOf .A = .running false 8000 9999 ∧ seeking.resetAsserted = false
    ∧ seeking.Speaks .A ∧ starts.Speaks .A ∧ (starts.heardOn .A).call.state = .seeking
    ∧ ((starts.heardOn .A).radio .A).state = .starting ∧ (starts.heardOn .A).surveyOf .A = .due
    ∧ (starts.heardOn .A).survey.urgent = true ∧ (∀ i, seeking.entry i = none) ∧ (∀ i, (starts.heardOn .A).entry i = none) :=
  ⟨rfl, rfl, rfl, rfl, rfl, rfl, ⟨⟨rfl, rfl⟩, rfl, by decide⟩, ⟨⟨rfl, rfl⟩, rfl, by decide⟩, rfl, rfl, rfl, rfl,
    entry_reset, entry_reset⟩

/-- SEEKING with the urgent order of radio A queued. -/
def urged : State :=
  ((inCall .seeking [] up).mapSurvey fun c => { c with urgent := true, states := ⟨.ordered true, .due⟩ }).setQueue .A
    [.survey 8000 true]

theorem witness_UrgentSurveys_end : urged.Listens .station ∧ (urged.opened .station).call.state = .seeking
    ∧ (urged.opened .station).call.attempts = [] ∧ (urged.opened .station).call.part = none
    ∧ ∀ r, (urged.opened .station).surveyOf r = .ordered true ↔ ∃ w, .survey w true ∈ ((urged.opened .station).radio r).queue := by
  refine ⟨⟨rfl, rfl⟩, rfl, rfl, rfl, ?_⟩
  intro r
  cases r
  · exact ⟨fun _ => ⟨8000, List.mem_singleton.mpr rfl⟩, fun _ => rfl⟩
  · constructor
    · intro h; cases h
    · rintro ⟨w, h⟩; cases h

theorem witness_AgeThresholds_fading : (place 0 { cell .A with state := .ranked .fading, age := 59999 } up).entry 0
      = some { cell .A with state := .ranked .fading, age := 59999 }
    ∧ 59999 < 4 * (up.profile.lost * 1000) ∧ 0 < up.profile.lost
    ∧ (place 47 { cell .A with state := .lost, age := 239999 } up).entry 47 = some { cell .A with state := .lost, age := 239999 }
    ∧ (cell .A).pin = false := by decide +kernel

/-! ### A radio lost -/

theorem loses_silence (s : State) (h : s.resetAsserted = false) (k : (s.radio .A).silence ≠ none) :
    s.Loses .A (.silenceTimerExpiry .A) s .radioSilent .silent State.followLines :=
  .inl ⟨rfl, h, k, rfl, rfl, rfl, rfl⟩

theorem witness_RadioLost_ways : starting.Loses .A (.startTimerExpiry .A) starting .radioFault .fault State.followLines
    ∧ up.Loses .A (.moduleStatus (.radio .A) 0 1) (up.heardOn .A) .radioFault .fault (fun t => t.answered (.radio .A) (bare .ok))
    ∧ up.Loses .A (.announce (.radio .A) [2, 3, 4, 5] 7) (up.opened (.radio .A)) .radioFault .starting
      (fun t => t.answered (.radio .A) (bare .ok)) := by
  refine ⟨.inr (.inl ⟨rfl, by decide +kernel, by decide +kernel, rfl, rfl, rfl, rfl⟩),
    .inr (.inr (.inl ⟨⟨0, rfl⟩, speaks_up _, rfl, by decide, rfl, rfl, rfl⟩)),
    .inr (.inr (.inr ⟨⟨_, _, rfl, by simp, by decide, by decide⟩, listens_up _, rfl, rfl, rfl, rfl, rfl⟩))⟩

theorem witness_RadioLost_attempt : (placing .taken).Loses .A (.silenceTimerExpiry .A) (placing .taken) .radioSilent .silent
      State.followLines ∧ (placing .taken).journal.records.length < 31 ∧ (placing .taken).call.part = none
    ∧ (placing .taken).call.attempts = [attemptA .taken] ∧ (attemptA .taken).radio = .A
    ∧ (attemptA .taken).disposition = none ∧ (attemptA .taken).step ≠ .connected ∧ (attemptA .taken).connected = none
    ∧ (placing .taken).call.state = .placing ∧ 0 < (placing .taken).profile.backoff ∧ (placing .taken).call.failures ≤ 255
    ∧ (∀ q, (placing .taken).call.radioFailures.get q ≤ 255) :=
  ⟨loses_silence _ rfl (by decide), by decide, rfl, rfl, rfl, rfl, by decide, rfl, rfl, by decide, by decide,
    (by intro q; cases q <;> decide)⟩

theorem entry_legA (v : CallState) (d : Option Disposition) (j : Nat) : (legA v d).entry j
    = if j = 5 then some { cell .A with pin := true } else none := by
  rw [show (legA v d).entry j = (place 5 { cell .A with pin := true } (raise .A .inCall up)).entry j from rfl,
    entry_place _ _ _ (by decide), show (raise .A .inCall up).entry j = State.reset.entry j from rfl, entry_reset]

theorem witness_RadioLost_leg : (legA .connected none).Loses .A (.silenceTimerExpiry .A) (legA .connected none) .radioSilent
      .silent State.followLines
    ∧ (legA .connected none).call.attempts = [{ attemptA .connected with connected := some ⟨0, 0⟩ }]
    ∧ (legA .connected none).call.state = .connected ∧ (legA .connected none).call.route = some .A
    ∧ (legA .connected none).call.recoveries ≤ 255 ∧ (legA .connected none).call.stagger = .stopped
    ∧ (legA .connected none).call.part = none
    ∧ (∀ j e, (legA .connected none).entry j = some e → e.radio = .A) := by
  refine ⟨loses_silence _ rfl (by decide), rfl, rfl, rfl, by decide, rfl, rfl, ?_⟩
  intro j e h
  rw [entry_legA] at h
  split at h <;> cases h
  rfl

theorem witness_RadioLost_ending : (legA .ending (some .cancel)).Loses .A (.silenceTimerExpiry .A) (legA .ending (some .cancel))
      .radioSilent .silent State.followLines ∧ (legA .ending (some .cancel)).call.state = .ending
    ∧ (legA .ending (some .cancel)).call.everConnected = false :=
  ⟨loses_silence _ rfl (by decide), rfl, rfl⟩

/-- CONNECTED on radio B, with a surplus loser of radio A. -/
def racing : State :=
  (raise .B .inCall (placing .taken)).mapCall fun c =>
    { c with
      state := .connected
      attempts := [{ attemptA .taken with disposition := some .surplus, setup := none },
        { attemptA .connected with number := 42, radio := .B, slot := 6, connected := some ⟨0, 0⟩ }]
      route := some .B, lineB := true }

theorem witness_RadioLost_surplus : racing.Loses .A (.silenceTimerExpiry .A) racing .radioSilent .silent State.followLines
    ∧ bothInFlight { attemptA .connected with number := 42, radio := .B, slot := 6, connected := some ⟨0, 0⟩ }
      { attemptA .taken with disposition := some .surplus, setup := none } racing.call.attempts
    ∧ racing.call.state = .connected ∧ racing.call.part = none :=
  ⟨loses_silence _ rfl (by decide), .inr rfl, rfl, rfl⟩

theorem witness_RadioLost_callback : (callback (some ⟨.B, .ringing, none⟩)).Loses .A (.silenceTimerExpiry .A)
      (callback (some ⟨.B, .ringing, none⟩)) .radioSilent .silent State.followLines
    ∧ (callback (some ⟨.B, .ringing, none⟩)).call.part = some (partA (some ⟨.B, .ringing, none⟩))
    ∧ (partA (some ⟨.B, .ringing, none⟩)).held = some ⟨.A, 26201, 4, 77, some 5⟩
    ∧ (callback (some ⟨.B, .ringing, none⟩)).call.attempts = []
    ∧ ((callback (some ⟨.B, .ringing, none⟩)).radio .B).state ≠ .off
    ∧ (callback (some ⟨.B, .ringing, none⟩)).Loses .B (.silenceTimerExpiry .B) (callback (some ⟨.B, .ringing, none⟩))
      .radioSilent .silent State.followLines
    ∧ (callback none).Loses .B (.silenceTimerExpiry .B) (callback none) .radioSilent .silent State.followLines :=
  ⟨loses_silence _ rfl (by decide), rfl, rfl, rfl, by decide, .inl ⟨rfl, rfl, by decide, rfl, rfl, rfl, rfl⟩,
    .inl ⟨rfl, rfl, by decide, rfl, rfl, rfl, rfl⟩⟩

theorem witness_RadioLost_callbackLeg : (legB .connected).Loses .B (.silenceTimerExpiry .B) (legB .connected) .radioSilent
      .silent State.followLines
    ∧ (legB .connected).Loses .A (.silenceTimerExpiry .A) (legB .connected) .radioSilent .silent State.followLines
    ∧ (legB .connected).call.part = some (partA (some ⟨.B, .answering, some ⟨0, 0⟩⟩))
    ∧ (legB .connected).call.state = .connected ∧ (legB .connected).call.route = some .B
    ∧ (legB .ending).Loses .B (.silenceTimerExpiry .B) (legB .ending) .radioSilent .silent State.followLines
    ∧ (legB .ending).call.state = .ending ∧ (legB .ending).call.route = none ∧ (legB .ending).call.lineA = false
    ∧ (legB .ending).call.lineB = false :=
  ⟨.inl ⟨rfl, rfl, by decide, rfl, rfl, rfl, rfl⟩, loses_silence _ rfl (by decide), rfl, rfl, rfl,
    .inl ⟨rfl, rfl, by decide, rfl, rfl, rfl, rfl⟩, rfl, rfl, rfl, rfl⟩

/-! ### Reports and orders -/

/-- Eight unpinned entries and a FREE slot, or seven, under CRITICAL. -/
def crowded (n : Nat) : State :=
  (List.range n).foldl (fun s i => place i { cell .B with cell := i } s) (under .critical up)

theorem witness_CellReportTaken_critical : (crowded 7).Speaks .A ∧ (crowded 7).supply.condition = .critical
    ∧ ((List.range 48).filter fun i => ((crowded 7).entry i).isSome).length < 8 + 0
    ∧ ((List.range 48).filter fun i => ((crowded 7).entry i).any (·.pin)).length = 0 ∧ (crowded 7).entry 7 = none := by
  refine ⟨⟨⟨rfl, rfl⟩, rfl, show RadioState.ready ≠ .off by decide⟩, ?_⟩
  decide +kernel

theorem witness_CellReportFull_bound : (crowded 8).Speaks .A ∧ (crowded 8).supply.condition = .critical
    ∧ 8 + ((List.range 48).filter fun i => ((crowded 8).entry i).any (·.pin)).length
      ≤ ((List.range 48).filter fun i => ((crowded 8).entry i).isSome).length ∧ (crowded 8).entry 8 = none
    ∧ (crowded 8).entry 7 = some { cell .B with cell := 7 } := by
  refine ⟨⟨⟨rfl, rfl⟩, rfl, show RadioState.ready ≠ .off by decide⟩, ?_⟩
  decide +kernel

theorem witness_CellReportFull_pinned : ∀ j e, ((full { cell .B with pin := true }).heardOn .A).entry j = some e → e.pin = true := by
  intro j e h
  rw [entry_full] at h
  split at h
  · cases h; rfl
  · split at h <;> cases h
    rfl

/-- A RINGING offer of radio B beside radio A's hold, and a POWER SNOOZE waiting for B. -/
def ringing : State := (callback (some ⟨.B, .ringing, none⟩)).setQueue .B [.power .snooze]

theorem witness_TakeOrder_offer : ringing.Speaks .B ∧ ((ringing.heardOn .B).radio .B).queue = [.power .snooze]
    ∧ (ringing.heardOn .B).call.state = .callback ∧ ((ringing.heardOn .B).radio .B).state = .ready
    ∧ (ringing.heardOn .B).call.part = some (partA (some ⟨.B, .ringing, none⟩))
    ∧ ∀ k, (partA (some ⟨.B, .ringing, none⟩)).held = some k → k.radio ≠ .B :=
  ⟨⟨⟨rfl, rfl⟩, rfl, by decide⟩, rfl, rfl, rfl, rfl, (by intro k h; cases h; decide)⟩

/-! ### Calls -/

theorem witness_CallStart_woken : (raise .B .snooze up).Listens .station ∧ ((raise .B .snooze up).radio .B).state = .snooze :=
  ⟨⟨rfl, rfl⟩, rfl⟩

theorem witness_CallEnd_choice : sought.endsCallback [] ⟨.A, 5, 26201, 4, 77⟩
    ∧ (raise .A .silent sought).endsIdle [] ∧ (raise .A .silent sought).call.everConnected = true
    ∧ (inCall .callback [] up).call.part = none := by
  refine ⟨⟨rfl, by decide, rfl, .inr (.inl rfl)⟩, .inr (.inr ?_), rfl, rfl⟩
  intro n h
  cases h
  exact ⟨by simp, by rintro (h | h) <;> cases h⟩

theorem witness_CallEndOthers_leg : (legB .connected).Listens .station ∧ (legB .connected).call.state = .connected
    ∧ (legB .connected).call.part = some (partA (some ⟨.B, .answering, some ⟨0, 0⟩⟩)) ∧ (legB .connected).call.route = some .B
    ∧ ((legB .connected).radio .B).state ≠ .off ∧ ((legB .connected).radio .B).state ≠ .fault :=
  ⟨⟨rfl, rfl⟩, rfl, rfl, rfl, by decide, by decide⟩

theorem witness_CallEndOthers_offer : (callback (some ⟨.B, .answering, none⟩)).Listens .station
    ∧ (callback (some ⟨.B, .answering, none⟩)).call.state = .callback
    ∧ (callback (some ⟨.B, .answering, none⟩)).call.part = some (partA (some ⟨.B, .answering, none⟩))
    ∧ (callback (some ⟨.A, .answering, none⟩)).call.part = some (partA (some ⟨.A, .answering, none⟩))
    ∧ (partA (some ⟨.A, .answering, none⟩)).held = some ⟨.A, 26201, 4, 77, some 5⟩ := ⟨⟨rfl, rfl⟩, rfl, rfl, rfl, rfl⟩

/-- Two attempts, the second with its order still queued. -/
def pairQueued : State :=
  (((raise .B .attempting (placing .taken)).setQueue .B [.attempt 42 6 26201 4 77 100]).mapRadio .B fun c =>
    { c with take := some 0 }).mapCall fun c =>
    { c with attempts := [attemptA .taken, { attemptA .ordered with number := 42, radio := .B, slot := 6 }] }

theorem witness_CallEndOthers_two : pair.Listens .station
    ∧ pair.call.attempts = [attemptA .alerting, { attemptA .taken with number := 42, radio := .B, slot := 6 }]
    ∧ pair.call.part = none ∧ pair.call.state = .placing ∧ pair.call.lineA = false ∧ pair.call.lineB = false
    ∧ (∀ c d e f g, .attempt 41 c d e f g ∉ (pair.radio .A).queue) ∧ (∀ c d e f g, .attempt 42 c d e f g ∉ (pair.radio .B).queue)
    ∧ pairQueued.Listens .station
    ∧ pairQueued.call.attempts = [attemptA .taken, { attemptA .ordered with number := 42, radio := .B, slot := 6 }]
    ∧ .attempt 42 6 26201 4 77 100 ∈ (pairQueued.radio .B).queue ∧ (pairQueued.radio .B).state = .attempting
    ∧ racing.Listens .station ∧ racing.call.state = .connected :=
  ⟨⟨rfl, rfl⟩, rfl, rfl, rfl, rfl, rfl, (by intro c d e f g h; cases h), (by intro c d e f g h; cases h), ⟨rfl, rfl⟩, rfl,
    by decide, rfl, ⟨rfl, rfl⟩, rfl⟩

theorem witness_IncomingAndAnswer_leg : leg.Listens .station
    ∧ (leg.opened .station).call.part = some ⟨600000, 5, false, none, some ⟨.B, .answering, some ⟨3, 0⟩⟩⟩
    ∧ (leg.opened .station).call.state = .connected ∧ (some (⟨3, 0⟩ : Time)) ≠ none :=
  ⟨⟨rfl, rfl⟩, rfl, rfl, by decide⟩

theorem witness_ProgressMoves_second : pair.Speaks .B
    ∧ bothInFlight { attemptA .taken with number := 42, radio := .B, slot := 6 } (attemptA .alerting)
      (pair.heardOn .B).call.attempts ∧ ((pair.heardOn .B).radio .B).state = .attempting ∧ (attemptA .alerting).step ≠ .ordered :=
  ⟨⟨⟨rfl, rfl⟩, rfl, by decide⟩, .inr rfl, rfl, by decide⟩

theorem witness_RaceLosers_ordered : pairQueued.Speaks .A
    ∧ bothInFlight (attemptA .taken) { attemptA .ordered with number := 42, radio := .B, slot := 6 }
      (pairQueued.heardOn .A).call.attempts
    ∧ ((pairQueued.heardOn .A).radio .A).state = .attempting ∧ ((pairQueued.heardOn .A).radio .B).state = .attempting
    ∧ .attempt 42 6 26201 4 77 100 ∈ ((pairQueued.heardOn .A).radio .B).queue ∧ (pairQueued.heardOn .A).call.route = none
    ∧ (pairQueued.heardOn .A).call.part = none ∧ (pairQueued.heardOn .A).journal.records.length < 31
    ∧ (pairQueued.heardOn .A).call.state = .placing :=
  ⟨⟨⟨rfl, rfl⟩, rfl, by decide⟩, .inl rfl, rfl, rfl, by decide, rfl, rfl, by decide, rfl⟩

theorem witness_RaceLosers_cleared : racing.Speaks .A
    ∧ bothInFlight { attemptA .taken with disposition := some .surplus, setup := none }
      { attemptA .connected with number := 42, radio := .B, slot := 6, connected := some ⟨0, 0⟩ }
      (racing.heardOn .A).call.attempts
    ∧ ((racing.heardOn .A).radio .A).state = .attempting ∧ (racing.heardOn .A).call.state = .connected
    ∧ (racing.heardOn .A).call.part = none := ⟨⟨⟨rfl, rfl⟩, rfl, by decide⟩, .inl rfl, rfl, rfl, rfl⟩

/-- The surplus loser of radio A with its CANCEL queued, beside radio B's leg or, in RECOVERING, its new attempt. -/
def givingUp (v : CallState) (st : AttemptStep) : State :=
  ((raise .B (if v = .connected then .inCall else .attempting) (placing .taken)).setQueue .A [.cancel 41 .surplus]).mapCall fun c =>
    { c with
      state := v
      attempts := [{ attemptA .taken with disposition := some .surplus, setup := none },
        { attemptA st with number := 42, radio := .B, slot := 6, connected := if v = .connected then some ⟨0, 0⟩ else none }]
      route := if v = .connected then some .B else none }

theorem witness_RaceLosers_givenUp : (givingUp .recovering .accepted).Speaks .B
    ∧ bothInFlight { attemptA .accepted with number := 42, radio := .B, slot := 6 }
      { attemptA .taken with disposition := some .surplus, setup := none }
      ((givingUp .recovering .accepted).heardOn .B).call.attempts
    ∧ (((givingUp .recovering .accepted).heardOn .B).radio .B).state = .attempting
    ∧ (((givingUp .recovering .accepted).heardOn .B).radio .A).state = .attempting
    ∧ .cancel 41 .surplus ∈ (((givingUp .recovering .accepted).heardOn .B).radio .A).queue
    ∧ (∀ o ∈ (((givingUp .recovering .accepted).heardOn .B).radio .B).queue
      ++ (((givingUp .recovering .accepted).heardOn .B).radio .A).queue, o.kind ≠ .attempt)
    ∧ 0 < ((givingUp .recovering .accepted).heardOn .B).profile.backoff
    ∧ ((givingUp .recovering .accepted).heardOn .B).call.failures ≤ 255
    ∧ (∀ q, ((givingUp .recovering .accepted).heardOn .B).call.radioFailures.get q ≤ 255) :=
  ⟨⟨⟨rfl, rfl⟩, rfl, by decide⟩, .inr rfl, rfl, rfl, by decide, by decide, by decide, by decide,
    (by intro q; cases q <;> decide)⟩

/-- The last of these with the loser's entry excluded, so that no entry can be a candidate when the leg drops. -/
def dropping : State := place 5 { cell .A with pin := true, excludedFor := some 1 } (givingUp .connected .connected)

theorem entry_dropping (j : Nat) : (dropping.heardOn .B).entry j
    = if j = 5 then some { cell .A with pin := true, excludedFor := some 1 } else (givingUp .connected .connected).entry j :=
  entry_place 5 { cell .A with pin := true, excludedFor := some 1 } (givingUp .connected .connected) (by decide) j

theorem witness_RaceLosers_dropped : dropping.Speaks .B
    ∧ bothInFlight { attemptA .connected with number := 42, radio := .B, slot := 6, connected := some ⟨0, 0⟩ }
      { attemptA .taken with disposition := some .surplus, setup := none } (dropping.heardOn .B).call.attempts
    ∧ ((dropping.heardOn .B).radio .B).state = .inCall
    ∧ (dropping.heardOn .B).call.route = some .B ∧ (dropping.heardOn .B).call.stagger = .stopped
    ∧ 0 < (dropping.heardOn .B).profile.exclusion
    ∧ ∀ j e, j ≠ 6 → (dropping.heardOn .B).entry j = some e → e.excludedFor ≠ none ∨ e.state = .lost := by
  refine ⟨⟨⟨rfl, rfl⟩, rfl, by decide⟩, .inr rfl, rfl, rfl, rfl, by decide, ?_⟩
  intro j e _ h
  rw [entry_dropping] at h
  split at h
  · cases h; exact .inl (by decide)
  · rename_i n
    have k : (givingUp .connected .connected).entry j = none := by
      rw [show (givingUp .connected .connected).entry j
          = (place 5 { cell .A with pin := true } (raise .A .attempting up)).entry j from rfl,
        entry_place _ _ _ (by decide), if_neg n]
      exact entry_reset j
    rw [k] at h; cases h

theorem witness_LegDropsAndClears_callback (s : State)
    (h : s = (legA .ending (some .cancel)).mapCall fun c => { c with everConnected := true, note := some ⟨.A, 5, 26201, 4, 77⟩ }) :
    s.Speaks .A ∧ (s.heardOn .A).call.state = .ending ∧ (s.heardOn .A).endsCallback [.A] ⟨.A, 5, 26201, 4, 77⟩ := by
  subst h
  exact ⟨⟨⟨rfl, rfl⟩, rfl, by decide⟩, rfl, rfl, by decide, rfl, .inl (List.mem_singleton.mpr rfl)⟩

theorem witness_CallTimers_callback (s : State) (h : s = (inCall .ending [] sought).mapCall fun c => { c with ending := some 4999 }) :
    s.resetAsserted = false ∧ s.call.ending ≠ none ∧ s.call.state = .ending ∧ s.call.part = none ∧ s.call.attempts = []
    ∧ s.journal.records.length < 31 ∧ s.endsCallback [] ⟨.A, 5, 26201, 4, 77⟩ := by
  subst h
  exact ⟨rfl, by decide, rfl, rfl, rfl, by decide, rfl, by decide, rfl, .inr (.inl rfl)⟩

/-! ### Walks -/

/-- An excluded entry of radio B, the stagger OPEN beside an attempt of radio A. -/
def open_ : State :=
  (staggered (place 6 { cell .B with excludedFor := some 1 } one)).mapCall fun c => { c with stagger := .opened }

theorem witness_StaggerWalks_open : open_.resetAsserted = false
    ∧ open_.entry 6 = some { cell .B with excludedFor := some 1 } ∧ open_.call.state = .placing ∧ open_.call.stagger = .opened
    ∧ open_.call.attempts = [attemptA .accepted] ∧ (attemptA .accepted).step = .accepted
    ∧ (attemptA .accepted).radio = otherRadio .B ∧ 41 ≠ open_.call.nextAttempt ∧ (open_.radio .B).state = .ready
    ∧ (open_.mapSlot 6 fun x => some { x with excludedFor := none }).entry 6 = some (cell .B)
    ∧ (open_.mapSlot 6 fun x => some { x with excludedFor := none }).chooseOn .B = some (6, cell .B) := by decide +kernel

theorem witness_StaggerWalks_seeking : (inCall .seeking [] open_).call.state = .seeking
    ∧ (inCall .seeking [] open_).call.attempts = [] ∧ (inCall .seeking [] open_).call.part = none
    ∧ ((inCall .seeking [] open_).mapSlot 6 fun x => some { x with excludedFor := none }).choose = some (6, cell .B)
    ∧ starts.Speaks .A ∧ ((starts.heardOn .A).radio .A).state = .starting := by
  refine ⟨rfl, rfl, rfl, by decide +kernel, ⟨⟨rfl, rfl⟩, rfl, by decide⟩, rfl⟩

theorem witness_StaggerWalks_failed : pair.Speaks .B
    ∧ bothInFlight { attemptA .taken with number := 42, radio := .B, slot := 6 } (attemptA .alerting)
      (pair.heardOn .B).call.attempts
    ∧ ((pair.heardOn .B).radio .B).state = .attempting ∧ ((pair.heardOn .B).radio .A).state = .attempting
    ∧ (∀ o ∈ ((pair.heardOn .B).radio .B).queue, o.kind ≠ .attempt) ∧ (pair.heardOn .B).journal.records.length < 32
    ∧ (pair.heardOn .B).call.failures ≤ 255 ∧ (∀ q, (pair.heardOn .B).call.radioFailures.get q ≤ 255) :=
  ⟨⟨⟨rfl, rfl⟩, rfl, by decide⟩, .inr rfl, rfl, rfl, by decide, by decide, by decide, (by intro q; cases q <;> decide)⟩

/-! ### What a report, a request or an expiry meets in the middle of a call -/

theorem entry_up (j : Nat) : up.entry j = none := entry_reset j

/-- SEEKING with an empty table. -/
def seekingUp : State := inCall .seeking [] up

/-- PLACING with an empty table, the stagger OPEN beside radio B's attempt. -/
def openUp : State :=
  (inCall .placing [{ attemptA .taken with radio := .B, slot := 6 }] (raise .B .attempting up)).mapCall fun c =>
    { c with stagger := .opened }

theorem witness_CellReportTaken_seeking : seekingUp.Speaks .A ∧ seekingUp.takesReports .A
    ∧ passesChecks ((seekingUp.heardOn .A).radio .A) report ∧ (seekingUp.heardOn .A).call.state = .seeking
    ∧ (seekingUp.heardOn .A).call.attempts = [] ∧ (seekingUp.heardOn .A).call.part = none ∧ 0 < 48
    ∧ (∀ j e, (seekingUp.heardOn .A).entry j = some e → e.key ≠ (.A, report.network, report.generation, report.cell))
    ∧ (seekingUp.heardOn .A).supply.condition ≠ .critical ∧ (seekingUp.heardOn .A).entry 0 = none
    ∧ (∀ j, j < 0 → (seekingUp.heardOn .A).entry j ≠ none) ∧ (seekingUp.heardOn .A).prefs.Sound :=
  ⟨⟨⟨rfl, rfl⟩, rfl, by decide⟩, ⟨by decide, by decide⟩, passes_report, rfl, rfl, rfl, by decide,
    (by intro j e h; rw [show (seekingUp.heardOn .A).entry j = up.entry j from rfl, entry_up] at h; cases h),
    by decide, entry_up 0, (by intro j h; omega), sound_up.table.1⟩

theorem witness_CellReportTaken_open : openUp.Speaks .A ∧ openUp.takesReports .A
    ∧ passesChecks ((openUp.heardOn .A).radio .A) report ∧ (openUp.heardOn .A).call.state = .placing
    ∧ (openUp.heardOn .A).call.stagger = .opened ∧ (openUp.heardOn .A).call.part = none
    ∧ (openUp.heardOn .A).call.attempts = [{ attemptA .taken with radio := .B, slot := 6 }]
    ∧ ({ attemptA .taken with radio := .B, slot := 6 } : Attempt).Early ∧ 41 ≠ (openUp.heardOn .A).call.nextAttempt
    ∧ (openUp.heardOn .A).entry 0 = none :=
  ⟨⟨⟨rfl, rfl⟩, rfl, by decide⟩, ⟨by decide, by decide⟩, passes_report, rfl, rfl, rfl, rfl, .inr (.inl rfl), by decide,
    entry_up 0⟩

theorem witness_CellReportTaken_none : up.NoSelection .A ∧ openUp.NoSelection .B :=
  ⟨⟨(by intro h; cases h), (by intro a h; rcases h with h | h <;> cases h)⟩,
    ⟨(by intro h; cases h), (by
      intro a _ _ h _ _ hr
      cases (List.cons.inj h).1
      cases hr)⟩⟩

theorem witness_CellReportFull_seeking (v : Entry) : (inCall .seeking [] (full v)).Speaks .A
    ∧ (inCall .seeking [] (full v)).takesReports .A ∧ ((inCall .seeking [] (full v)).heardOn .A).call.state = .seeking
    ∧ ∀ j, ((inCall .seeking [] (full v)).heardOn .A).entry j = ((full v).heardOn .A).entry j :=
  have h : RadioState.ready ≠ .off ∧ RadioState.ready ≠ .snooze ∧ RadioState.ready ≠ .fault := by decide
  ⟨⟨⟨rfl, rfl⟩, rfl, h.1⟩, ⟨h.2.1, h.2.2⟩, rfl, fun _ => rfl⟩

/-- A radio's survey in a state, with an order of it queued, under a set mode and a shared pause. -/
def surveys (m : SurveyMode) (v : SurveyState) (q : List Order) : State :=
  (up.setQueue .A q).mapSurvey fun c => { c with mode := m, states := ⟨v, .due⟩, shared := some ⟨7, m = .paused⟩ }

theorem witness_SetSurveyMode_queued : (surveys .continuous (.ordered false) [.survey 8000 false]).Listens .station
    ∧ (surveys .continuous (.ordered false) [.survey 8000 false]).survey.mode ≠ .off
    ∧ (surveys .continuous (.ordered false) [.survey 8000 false]).survey.mode ≠ .paused
    ∧ (surveys .continuous (.ordered false) [.survey 8000 false]).supply.condition ≠ .critical
    ∧ (surveys .continuous (.ordered false) [.survey 8000 false]).surveyOf .A = .ordered false
    ∧ .survey 8000 false ∈ ((surveys .continuous (.ordered false) [.survey 8000 false]).radio .A).queue :=
  ⟨⟨rfl, rfl⟩, by decide, by decide, by decide, rfl, by decide⟩

theorem witness_SetSurveyMode_pauses : (surveys .paused (.waiting (some ⟨9, true⟩)) []).Listens .station
    ∧ (surveys .paused (.waiting (some ⟨9, true⟩)) []).survey.mode ≠ .continuous
    ∧ (surveys .paused (.waiting (some ⟨9, true⟩)) []).surveyOf .A = .waiting (some ⟨9, true⟩)
    ∧ (surveys .paused (.waiting (some ⟨9, true⟩)) []).survey.shared = some ⟨7, true⟩
    ∧ (surveys .continuous (.waiting (some ⟨9, false⟩)) []).survey.mode ≠ .paused
    ∧ (surveys .continuous (.waiting (some ⟨9, false⟩)) []).surveyOf .A = .waiting (some ⟨9, false⟩)
    ∧ (surveys .continuous (.waiting (some ⟨9, false⟩)) []).survey.mode ≠ .once :=
  ⟨⟨rfl, rfl⟩, by decide, rfl, rfl, by decide, rfl, by decide⟩

/-- R75: on leaving PAUSED both pauses count again from their remaining time. -/
theorem test_setSurveyMode_pauses :
    ((run (.setSurveyMode .station 2) (surveys .paused (.waiting (some ⟨9, true⟩)) [])).surveyOf .A,
      (run (.setSurveyMode .station 2) (surveys .paused (.waiting (some ⟨9, true⟩)) [])).survey.shared)
      = (.waiting (some ⟨9, false⟩), some ⟨7, false⟩) := by decide +kernel

/-- The state in which the walk of a CALL START in CALLBACK is made: the held entry unpinned. -/
def heldFree : State := ((callback none).opened .station).unpinHeld (partA none)

theorem witness_CallStart_callbackChoice : (callback none).Listens .station
    ∧ ((callback none).opened .station).call.state = .callback ∧ ((callback none).opened .station).call.attempts = []
    ∧ ((callback none).opened .station).call.part = some (partA none) ∧ (∀ o, (partA none).offer = some o → o.ring = .answering)
    ∧ (∃ k, (partA none).held = some k ∧ k.slot = some 5 ∧ k.radio = .A)
    ∧ heldFree.FirstOf (eligibleOf heldFree.Candidate) 5 (cell .A) := by
  refine ⟨⟨rfl, rfl⟩, rfl, rfl, rfl, (by intro o h; cases h), ⟨_, rfl, rfl, rfl⟩,
    ⟨⟨?_, ⟨.steady, rfl⟩, .inl rfl, rfl, ?_⟩, .inl (by decide)⟩, 0, ?_, by intro m j f h; omega⟩
  · decide +kernel
  · intro a h; cases h
  · decide +kernel

/-- R145: the ATTEMPT stands behind the CALLBACK END. -/
theorem test_callStart_callback : ((run (.callStart .station) (callback none)).radio .A).queue
    = [.callback .stop, .attempt 1 5 26201 4 77 100] := by decide +kernel

/-- Two attempts whose orders are both still queued. -/
def bothQueued : State :=
  ((raise .B .attempting (placing .ordered)).setQueue .A [.attempt 41 5 26201 4 77 100]).setQueue .B
    [.attempt 42 6 26201 4 77 100] |>.mapCall fun c =>
      { c with attempts := [attemptA .ordered, { attemptA .ordered with number := 42, radio := .B, slot := 6 }] }

theorem witness_CallEndOthers_ordered : bothQueued.Listens .station
    ∧ (bothQueued.opened .station).call.attempts
      = [attemptA .ordered, { attemptA .ordered with number := 42, radio := .B, slot := 6 }]
    ∧ (bothQueued.opened .station).call.part = none ∧ (bothQueued.opened .station).call.state = .placing
    ∧ ((bothQueued.opened .station).call.lineA = false ∧ (bothQueued.opened .station).call.lineB = false)
    ∧ (bothQueued.opened .station).journal.records.length < 30
    ∧ (∀ x ∈ (bothQueued.opened .station).call.attempts, x.disposition = none ∧ x.connected = none
      ∧ ((bothQueued.opened .station).radio x.radio).state = .attempting
      ∧ ∃ c d e f g, .attempt x.number c d e f g ∈ ((bothQueued.opened .station).radio x.radio).queue)
    ∧ (bothQueued.opened .station).endsIdle [.A, .B] := by
  refine ⟨⟨rfl, rfl⟩, rfl, rfl, rfl, ⟨rfl, rfl⟩, by decide, ?_, .inl rfl⟩
  intro x h
  rcases List.mem_cons.mp h with h | h
  · cases h; exact ⟨rfl, rfl, rfl, _, _, _, _, _, List.mem_singleton.mpr rfl⟩
  · cases List.mem_singleton.mp h; exact ⟨rfl, rfl, rfl, _, _, _, _, _, List.mem_singleton.mpr rfl⟩

/-- Each is withdrawn, in the order of the attempts in flight (log entry 33), and the call is over. -/
theorem test_callEnd_ordered : ((run (.callEnd .station) bothQueued).call.state,
    (run (.callEnd .station) bothQueued).journal.records.map fun x => (x.radio, x.outcome))
      = (.idle, [(some .A, some .withdrawn), (some .B, some .withdrawn), (none, none)]) := by decide +kernel

/-- Two attempts TAKEN, the second made surplus or not. -/
def bothTaken (d : Option Disposition) : State :=
  pair.mapCall fun c =>
    { c with attempts := [attemptA .taken, { attemptA .taken with number := 42, radio := .B, slot := 6, disposition := d }] }

theorem witness_ProgressMoves_either (d : Option Disposition) (x : Attempt)
    (hx : x = { attemptA .taken with number := 42, radio := .B, slot := 6, disposition := d }) :
    (bothTaken d).Speaks .A ∧ (bothTaken d).Speaks .B
    ∧ bothInFlight (attemptA .taken) x ((bothTaken d).heardOn .A).call.attempts
    ∧ bothInFlight x (attemptA .taken) ((bothTaken d).heardOn .B).call.attempts ∧ (attemptA .taken).number ≠ x.number := by
  subst hx
  have h : RadioState.attempting ≠ .off := by decide
  exact ⟨⟨⟨rfl, rfl⟩, rfl, h⟩, ⟨⟨rfl, rfl⟩, rfl, h⟩, .inl rfl, .inr rfl, show 41 ≠ 42 by decide⟩

theorem witness_ProgressRefused_disposed :
    ({ attemptA .ordered with disposition := some .surplus } : Attempt).step ≠ .taken
    ∧ ({ attemptA .alerting with disposition := some .cancel } : Attempt).step ≠ .accepted
    ∧ ¬ (5 < 1 ∨ ((1 = 3 ∨ 1 = 4) ∧ 3 < 0)) := by decide

/-- The surplus loser's own entry is free to be the target once its radio is released. -/
theorem witness_RaceLosers_candidate : (givingUp .connected .connected).Speaks .B
    ∧ ((givingUp .connected .connected).heardOn .B).call.state = .connected
    ∧ ((givingUp .connected .connected).heardOn .B).call.recoveries ≤ 255
    ∧ .cancel 41 .surplus ∈ (((givingUp .connected .connected).heardOn .B).radio .A).queue
    ∧ (∀ j e, j ≠ 6 → ((givingUp .connected .connected).heardOn .B).entry j = some e → e.radio = .B →
      e.excludedFor ≠ none ∨ e.state = .lost)
    ∧ ((givingUp .connected .connected).heardOn .B).entry 5 = some { cell .A with pin := true }
    ∧ (cell .A).age < (givingUp .connected .connected).profile.fade * 1000 := by
  refine ⟨⟨⟨rfl, rfl⟩, rfl, by decide⟩, rfl, by decide, by decide, ?_, by decide +kernel, by decide⟩
  intro j e _ h hr
  rw [show ((givingUp .connected .connected).heardOn .B).entry j
      = (place 5 { cell .A with pin := true } (raise .A .attempting up)).entry j from rfl,
    entry_place _ _ _ (by decide)] at h
  split at h
  · cases h; cases hr
  · rw [show (raise .A .attempting up).entry j = State.reset.entry j from rfl, entry_reset] at h; cases h

/-- R134, R135, R95: the drop orders a new attempt behind the CANCEL of the attempt given up. -/
theorem test_drop_givenUp : ((run (.progress (.radio .B) 42 4 0) (givingUp .connected .connected)).call.state,
    ((run (.progress (.radio .B) 42 4 0) (givingUp .connected .connected)).radio .A).queue)
      = (.placing, [.cancel 41 .surplus, .attempt 1 5 26201 4 77 100]) := by decide +kernel

/-- ENDING with its timer running. -/
def expiring (s : State) : State := s.mapCall fun c => { c with ending := some 4999 }

theorem witness_CallTimers_leg : (expiring (legA .ending (some .cancel))).resetAsserted = false
    ∧ (expiring (legA .ending (some .cancel))).call.ending ≠ none
    ∧ (expiring (legA .ending (some .cancel))).call.state = .ending
    ∧ (expiring (legA .ending (some .cancel))).call.attempts
      = [{ attemptA .connected with connected := some ⟨0, 0⟩, disposition := some .cancel }]
    ∧ ((expiring (legA .ending (some .cancel))).radio .A).state = .inCall
    ∧ (expiring (legA .ending (some .cancel))).endsIdle [.A] := ⟨rfl, by decide, rfl, rfl, rfl, .inl rfl⟩

/-- ENDING with two attempts in flight. -/
def endingTwo : State := expiring ((bothTaken none).mapCall fun c => { c with state := .ending })

theorem witness_CallTimers_two : endingTwo.resetAsserted = false ∧ endingTwo.call.ending ≠ none
    ∧ endingTwo.call.state = .ending ∧ endingTwo.call.part = none
    ∧ endingTwo.call.attempts = [attemptA .taken, { attemptA .taken with number := 42, radio := .B, slot := 6 }]
    ∧ (endingTwo.call.attempts.map (·.number)).Nodup ∧ (endingTwo.call.attempts.map (·.radio)).Nodup
    ∧ (endingTwo.radio .A).state = .attempting ∧ (endingTwo.radio .B).state = .attempting
    ∧ endingTwo.journal.records.length < 30 :=
  ⟨rfl, by decide, rfl, rfl, rfl, by decide, by decide, rfl, rfl, by decide⟩

theorem witness_CallTimers_callbackLeg : (expiring (legB .ending)).resetAsserted = false
    ∧ (expiring (legB .ending)).call.ending ≠ none ∧ (expiring (legB .ending)).call.state = .ending
    ∧ (expiring (legB .ending)).call.attempts = []
    ∧ (expiring (legB .ending)).call.part = some (partA (some ⟨.B, .answering, some ⟨0, 0⟩⟩))
    ∧ ((expiring (legB .ending)).radio .B).state = .inCall ∧ (expiring (legB .ending)).call.route = none
    ∧ (expiring (legB .ending)).call.lineA = false ∧ (expiring (legB .ending)).call.lineB = false
    ∧ (expiring (legB .ending)).journal.records.length < 31
    ∧ ∀ k, (partA (some ⟨.B, .answering, some ⟨0, 0⟩⟩)).held = some k → k.radio ≠ .B :=
  ⟨rfl, by decide, rfl, rfl, rfl, rfl, rfl, rfl, rfl, by decide, (by intro k h; cases h; decide)⟩

/-- A callback leg of radio B whose held radio has been lost. -/
def lone : State := (raise .B .inCall leg).mapCall fun c => { c with route := some .B }

theorem witness_CallbackLeg_lone : lone.Speaks .B ∧ (lone.heardOn .B).call.state = .connected
    ∧ (lone.heardOn .B).call.part = some ⟨600000, 5, false, none, some ⟨.B, .answering, some ⟨3, 0⟩⟩⟩
    ∧ (lone.heardOn .B).call.attempts = [] ∧ ((lone.heardOn .B).radio .B).state = .inCall
    ∧ (lone.heardOn .B).call.route = some .B ∧ (lone.heardOn .B).journal.records.length < 31 :=
  ⟨⟨⟨rfl, rfl⟩, rfl, by decide⟩, rfl, rfl, rfl, rfl, rfl, by decide⟩

end Sys2Proof.Tests
end

section
/-! PROOFS. READ ENTRY, READ RADIO, READ PROFILE and READ PREFERENCE: what each read returns, what a slot's rank is, and
the outcome of a request that only reads. -/

namespace Sys2Proof.Machine

/-! ### The rank of a slot (R19) -/

/-- Ordering the ranked entries neither loses nor repeats one. -/
theorem foldr_insertRanked_perm (l : List (Nat × Entry)) : (l.foldr insertRanked []).Perm l := by
  induction l with
  | nil => exact .refl _
  | cons x rest ih => exact (insertRanked_perm x _).trans (ih.cons x)

theorem occupiedSlots_nodup (t : Slots) : ((occupiedSlots t).map (·.1)).Nodup := by
  have numbers : t.toList.zipIdx.Pairwise fun x y => x.2 ≠ y.2 :=
    List.pairwise_map.1 (List.nodup_zipIdx_map_snd t.toList)
  refine List.pairwise_map.2 (numbers.filterMap _ fun x y hne a ha b hb => ?_)
  obtain ⟨e, _, rfl⟩ := Option.map_eq_some_iff.1 ha
  obtain ⟨f, _, rfl⟩ := Option.map_eq_some_iff.1 hb
  exact hne

theorem rankedList_nodup (t : Slots) : ((rankedList t).map (·.1)).Nodup := by
  have perm : (rankedList t).Perm ((occupiedSlots t).filter (·.2.isRanked)) := foldr_insertRanked_perm _
  exact (perm.map _).nodup_iff.2 ((occupiedSlots_nodup t).sublist (List.filter_sublist.map _))

/-- Where no two items have the same key, the first item with a key is the only one. -/
theorem findIdx?_key_eq_some_iff {α : Type} {l : List (Nat × α)} (h : (l.map (·.1)).Nodup) (i n : Nat) :
    (l.findIdx? fun x => x.1 == i) = some n ↔ (l[n]?).map (·.1) = some i := by
  rw [List.findIdx?_eq_some_iff_getElem, ← List.getElem?_map, List.getElem?_eq_some_iff]
  constructor
  · rintro ⟨hn, hi, _⟩
    exact ⟨by simpa using hn, by simpa using hi⟩
  · rintro ⟨hn, hi⟩
    refine ⟨by simpa using hn, by simpa using hi, fun j hj => ?_⟩
    have hne := List.pairwise_iff_getElem.1 h j n (hj.trans hn) hn hj
    simp only [hi, List.getElem_map] at hne
    simpa using hne

/-- The rank of a slot is its position in the ranked list (R19). -/
theorem State.rankOf_eq_some_iff (s : State) (i n : Nat) :
    s.rankOf i = some n ↔ (s.ranked[n]?).map (·.1) = some i :=
  findIdx?_key_eq_some_iff (rankedList_nodup _) i n

/-! ### Radio numbers (R164) -/

@[simp] theorem radioOf_code (r : Radio) : radioOf (Radio.code r) = some r := by cases r <;> rfl

theorem radioOf_eq_none {n : Nat} (h : 1 < n) : radioOf n = none := by
  match n, h with
  | _ + 2, _ => rfl

/-! ### What each read returns -/

theorem State.readEntry_inRange (s : State) {slot : Nat} (h : slot ≤ 47) :
    s.readEntry slot = ⟨.ok, .entry ((s.entry slot).map fun e => (e, s.rankOf slot))⟩ := if_pos h

theorem State.readEntry_outOfRange (s : State) {slot : Nat} (h : 47 < slot) : s.readEntry slot = bare .range :=
  if_neg (by omega)

theorem State.readRadio_code (s : State) (r : Radio) : s.readRadio (Radio.code r) = ⟨.ok, .radio (s.radioView r)⟩ := by
  simp [State.readRadio]

theorem State.readRadio_outOfRange (s : State) {n : Nat} (h : 1 < n) : s.readRadio n = bare .range := by
  simp [State.readRadio, radioOf_eq_none h, bare]

theorem State.readPreference_inRange (s : State) {i : Nat} (h : i ≤ 15) :
    s.readPreference i = ⟨.ok, .prefRead i (s.prefs.at i) (s.prefs.locked i) s.prefs.lock⟩ := if_pos h

theorem State.readPreference_outOfRange (s : State) {i : Nat} (h : 15 < i) : s.readPreference i = bare .range :=
  if_neg (by omega)

/-- A lock covers the indices below its boundary, or those from its boundary on (R49). -/
theorem Preferences.locked_iff (l : Preferences) (i : Nat) :
    l.locked i = true ↔ ∃ k, l.lock = some k
      ∧ ((k.direction = .lower ∧ i < k.boundary) ∨ (k.direction = .upper ∧ k.boundary ≤ i)) := by
  unfold Preferences.locked
  rcases l.lock with _ | ⟨w, _ | _⟩ <;> simp

@[simp] theorem queueItem_kind (o : Order) : (queueItem o).1 = o.kind := by cases o <;> rfl

/-- The listed number of a queued order is the attempt number of an ATTEMPT or a CANCEL (R70). -/
theorem queueItem_number_iff (o : Order) (k : Nat) :
    (queueItem o).2 = some k ↔ (∃ a b c d e, o = .attempt k a b c d e) ∨ ∃ a, o = .cancel k a := by
  cases o <;> simp [queueItem]

theorem State.radioView_queue_kinds (s : State) (r : Radio) :
    (s.radioView r).queue.map (·.1) = (s.radio r).queue.map Order.kind := by
  simp [State.radioView]

theorem State.radioView_queue_number (s : State) (r : Radio) {i k : Nat} {x : OrderKind × Option Nat}
    (h : (s.radioView r).queue[i]? = some x) :
    x.2 = some k ↔ ∃ o, (s.radio r).queue[i]? = some o
      ∧ ((∃ a b c d e, o = .attempt k a b c d e) ∨ ∃ a, o = .cancel k a) := by
  obtain ⟨o, ho, rfl⟩ : ∃ o, (s.radio r).queue[i]? = some o ∧ queueItem o = x := by
    simpa [State.radioView] using h
  simp [ho, queueItem_number_iff]

/-! ### The outcome of each read request -/

section Outcomes

variable {s : State}

theorem exec_readEntry_station (h : s.Listens .station) (slot : Nat) :
    exec (.readEntry .station slot) s = .next ((s.opened .station).answered .station (s.readEntry slot)) :=
  State.next_station h rfl

theorem exec_readRadio_station (h : s.Listens .station) (n : Nat) :
    exec (.readRadio .station n) s = .next ((s.opened .station).answered .station (s.readRadio n)) :=
  State.next_station h rfl

theorem exec_readProfile_station (h : s.Listens .station) :
    exec (.readProfile .station) s = .next ((s.opened .station).answered .station ⟨.ok, .profile s.profile⟩) :=
  State.next_station h rfl

theorem exec_readPreference_station (h : s.Listens .station) (i : Nat) :
    exec (.readPreference .station i) s = .next ((s.opened .station).answered .station (s.readPreference i)) :=
  State.next_station h rfl

/-- A station request from a radio port outside link-check mode: the radio is heard, and answered DENIED (R166). -/
theorem State.stationRequest_radio {r : Radio} (h : s.Listens (.radio r)) (hl : s.linkCheck.get r = none)
    (f : Handler) :
    s.stationRequest (.radio r) f = (s.heardOn r).answered (.radio r) (bare .denied) :=
  State.request_radio h hl f denied

end Outcomes

/-- Settles O19: at the station each request is a readout, whose response the lemmas on each read give; at a radio port
it is DENIED. -/
theorem readRequests : Obligations.ReadRequests := by
  refine ⟨⟨fun s slot h => ?entry, fun s n h => ?radio, fun s r n h hl => ?denied⟩, fun s h => ?preferences⟩
  case entry =>
    rw [exec_readEntry_station h]
    refine ⟨fun hs => ?_, fun hs free => ?_, fun e hs he => ⟨s.rankOf slot, s.rankOf_eq_some_iff slot, ?_⟩⟩
    · rw [s.readEntry_outOfRange hs]
    · rw [s.readEntry_inRange hs, free, Option.map_none]
    · rw [s.readEntry_inRange hs, he, Option.map_some]
  case radio =>
    rw [exec_readRadio_station h]
    constructor
    · intro hn
      rw [s.readRadio_outOfRange hn]
    · rintro r rfl
      exact ⟨s.radioView r, by rw [s.readRadio_code], rfl, rfl, rfl, rfl, rfl, rfl, s.radioView_queue_kinds r,
        fun _ _ _ => s.radioView_queue_number r, rfl, rfl⟩
  case denied =>
    exact ⟨congrArg Host.Outcome.next (State.stationRequest_radio h hl _),
      congrArg Host.Outcome.next (State.stationRequest_radio h hl _)⟩
  case preferences =>
    refine ⟨exec_readProfile_station h, fun i hi => ?_, fun i hi => ⟨s.prefs.locked i, s.prefs.locked_iff i, ?_⟩⟩
    · rw [exec_readPreference_station h, s.readPreference_outOfRange hi]
    · rw [exec_readPreference_station h, s.readPreference_inRange hi]

end Sys2Proof.Machine
end

section
/-! PROOFS. WRITE PREFERENCE: the tier that a list gives a code, what the tier events of a write make of an entry, and
the outcome of each check of R43. -/

namespace Sys2Proof.Machine

/-! ### The tier that a list gives a code (R41) -/

/-- The pairs that a list holds are the contents of its indices. -/
theorem Preferences.mem_pairs (l : Preferences) (q : Preference) :
    q ∈ l.list.toList.filterMap id ↔ ∃ j, l.at j = some q := by
  rw [List.mem_filterMap]
  simp only [id_eq, exists_eq_right, List.mem_iff_getElem?, l.at_eq]

/-- A code that an index holds has the tier of that pair: no other index holds it. -/
theorem tierOf_of_at {l : Preferences} (h : l.Sound) {j : Nat} {q : Preference} (hq : l.at j = some q) :
    tierOf l q.code = q.tier := by
  have hmem : q ∈ l.list.toList.filterMap id := (l.mem_pairs q).2 ⟨j, hq⟩
  obtain ⟨c, hc⟩ := Option.isSome_iff_exists.1
    (List.find?_isSome (p := fun c : Preference => c.code == q.code).2 ⟨q, hmem, beq_self_eq_true _⟩)
  have hcode : c.code = q.code := by simpa using List.find?_some hc
  have hcq : c = q := List.inj_on_of_nodup_map h.distinct (List.mem_of_find?_eq_some hc) hmem hcode
  rw [tierOf, hc, hcq, Option.elim_some]

/-- A code that no index holds has tier 1. -/
theorem tierOf_of_absent {l : Preferences} {n : Nat} (h : ∀ j q, l.at j = some q → q.code ≠ n) : tierOf l n = 1 := by
  have hnone : (l.list.toList.filterMap id).find? (fun c => c.code == n) = none := by
    refine List.find?_eq_none.2 fun c hc => ?_
    obtain ⟨j, hj⟩ := (l.mem_pairs c).1 hc
    simpa using h j c hj
  rw [tierOf, hnone, Option.elim_none]

/-! ### A write of one index (R43 to R45) -/

@[simp] theorem Preferences.put_lock (l : Preferences) (i : Nat) (x : Option Preference) : (l.put i x).lock = l.lock := by
  unfold Preferences.put
  split <;> rfl

/-- A write sets the index that it names, and no other. -/
theorem Preferences.at_put_eq_ite (l : Preferences) {i : Nat} (x : Option Preference) (hi : i < 16) (j : Nat) :
    (l.put i x).at j = if j = i then x else l.at j := by
  split
  · next hj => rw [hj, l.at_put i x hi]
  · next hj =>
    unfold Preferences.put Preferences.at
    rw [dif_pos hi, Vector.toList_set, List.getElem?_set_ne (Ne.symm hj)]

/-- The duplicate check compares the code with every other index (R43, step 4). -/
theorem Preferences.duplicate_iff (l : Preferences) (i code : Nat) :
    l.duplicate i code = true ↔ ∃ j q, j ≠ i ∧ l.at j = some q ∧ q.code = code := by
  constructor
  · intro h
    obtain ⟨⟨x, j⟩, hmem, hx⟩ := List.any_eq_true.1 h
    obtain ⟨hj, q, rfl, hq⟩ : j ≠ i ∧ ∃ q, x = some q ∧ q.code = code := by
      simpa [Option.any_eq_true] using hx
    exact ⟨j, q, hj, (l.at_eq j q).2 (List.mem_zipIdx_iff_getElem?.1 hmem), hq⟩
  · rintro ⟨j, q, hj, hat, hq⟩
    by_contra h
    exact l.not_duplicate i code (by simpa using h) j hj q ((l.at_eq j q).1 hat) hq

/-! ### What tier events make of an entry (R46) -/

/-- An event for the entry's own code: the tier is the event's, and a ranked entry whose tier changes is scored anew. -/
theorem Entry.setTier_self (b : Biases) (e : Entry) (t : Nat) :
    e.setTier b e.network t = { e with
      tier := t
      score := if e.isRanked = true ∧ t ≠ e.tier then scoreOf b { e with tier := t } else e.score } := by
  unfold Entry.setTier
  by_cases h : e.tier = t
  · subst h; simp
  · rw [if_pos ⟨rfl, h⟩]
    unfold Entry.rescore
    by_cases hr : e.isRanked = true
    · rw [if_pos (show ({ e with tier := t } : Entry).isRanked = true from hr), if_pos ⟨hr, Ne.symm h⟩]
    · rw [if_neg (show ¬ ({ e with tier := t } : Entry).isRanked = true from hr), if_neg fun k => hr k.1]

theorem Entry.setTier_of_tier_eq (b : Biases) {e : Entry} {c t : Nat} (h : e.tier = t) : e.setTier b c t = e :=
  if_neg fun k => k.2 h

theorem Entry.setTier_of_network_ne (b : Biases) {e : Entry} {c : Nat} (t : Nat) (h : e.network ≠ c) :
    e.setTier b c t = e :=
  if_neg fun k => h k.1

/-- Events that each carry the tier `g` gives their code act on an entry as one event for its own code. -/
theorem foldl_setTier (b : Biases) (g : Nat → Nat) (l : List Preference) (hl : ∀ x ∈ l, x.tier = g x.code) (e : Entry) :
    l.foldl (fun e x => e.setTier b x.code x.tier) e
      = if e.network ∈ l.map (·.code) then e.setTier b e.network (g e.network) else e := by
  induction l generalizing e with
  | nil => simp
  | cons x rest ih =>
    have hrest : ∀ y ∈ rest, y.tier = g y.code := fun y hy => hl y (List.mem_cons_of_mem x hy)
    rw [List.foldl_cons, ih hrest, hl x List.mem_cons_self]
    by_cases h : e.network = x.code
    · have again : (e.setTier b e.network (g e.network)).setTier b e.network (g e.network)
          = e.setTier b e.network (g e.network) := Entry.setTier_of_tier_eq b (by rw [Entry.setTier_self])
      have hnet : (e.setTier b e.network (g e.network)).network = e.network := by rw [Entry.setTier_self]
      rw [← h, hnet, again, ite_self, if_pos (by simp [h])]
    · rw [Entry.setTier_of_network_ne b _ h]
      simp [h]

/-- The tier events of a write give an entry whose tier follows the list the tier that the list then gives its code. -/
theorem foldl_tierChanges (b : Biases) (l : Preferences) {i : Nat} (x : Option Preference) (hi : i < 16) {e : Entry}
    (he : e.tier = tierOf l e.network) :
    (tierChanges l (l.put i x) i).foldl (fun e x => e.setTier b x.code x.tier) e
      = e.setTier b e.network (tierOf (l.put i x) e.network) := by
  rw [foldl_setTier b _ _ (tierChanges_tier l (l.put i x) i)]
  split
  · rfl
  · next hmem =>
    have hsame : tierOf l e.network = tierOf (l.put i x) e.network :=
      not_not.1 fun h => hmem (tierChanges_mem l i x hi _ h)
    exact (Entry.setTier_of_tier_eq b (he.trans hsame)).symm

/-! ### The table after a taken write (R46) -/

/-- A pass over the table that changes tiers and scores alone leaves the available count, so no TABLE notice is posted
(R20, R46). -/
theorem State.mapTable_of_tier_score (s : State) {f : Entry → Option Entry}
    (hf : ∀ e, ∃ t n, f e = some { e with tier := t, score := n }) :
    s.mapTable f = { s with table := { s.table with slots := mapEntries s.table.slots f } } := by
  have havail : ({ s with table := { s.table with slots := mapEntries s.table.slots f } } : State).available
      = s.available := by
    unfold State.available mapEntries
    simp only [Vector.toList, List.countP_map]
    refine List.countP_congr fun x _ => ?_
    cases x with
    | none => rfl
    | some e =>
      obtain ⟨t, n, he⟩ := hf e
      simp only [Function.comp, Option.bind_some, he]
      rfl
  unfold State.mapTable State.setSlots noteTable
  rw [havail, if_pos (beq_self_eq_true _)]

/-- A taken write changes the list and the slots, and nothing else. -/
theorem State.writeIndex_eq (s : State) (i : Nat) (x : Option Preference) :
    s.writeIndex i x = { s with
      prefs := s.prefs.put i x
      table := { s.table with slots := (s.writeIndex i x).table.slots } } := by
  have pass := ({ s with prefs := s.prefs.put i x } : State).mapTable_of_tier_score fun e => by
    obtain ⟨n, hn, -⟩ := foldTiers s.profile.biases (tierOf (s.prefs.put i x)) _
      (tierChanges_tier s.prefs (s.prefs.put i x) i) e
    exact ⟨_, n, congrArg some hn⟩
  unfold State.writeIndex State.tierEvents
  rw [pass]

@[simp] theorem State.writeIndex_prefs (s : State) (i : Nat) (x : Option Preference) :
    (s.writeIndex i x).prefs = s.prefs.put i x := by
  rw [State.writeIndex_eq]

/-- Every occupied entry has the tier event of its own code, with the tier that the list gives after the write. -/
theorem State.writeIndex_entry {s : State} (hs : s.TableSound) {i : Nat} (x : Option Preference) (hi : i < 16) (n : Nat) :
    (s.writeIndex i x).entry n
      = (s.entry n).map fun e => e.setTier s.profile.biases e.network (tierOf (s.prefs.put i x) e.network) := by
  obtain ⟨-, slots⟩ := hs
  unfold State.writeIndex State.tierEvents
  rw [(mapTable_facts _ _).1]
  change (s.entry n).bind _ = _
  cases he : s.entry n with
  | none => rfl
  | some e => exact congrArg some (foldl_tierChanges s.profile.biases s.prefs x hi (slots.entries n e he).tier)

/-! ### The checks of R43 in order -/

section Checks

variable {s : State} {i empty : Nat} (code tier : Nat)

theorem State.writeRequest_outOfRange (s : State) (h : 1 < empty ∨ 15 < i) :
    s.writeRequest i empty code tier = (s, bare .range) := by
  unfold State.writeRequest
  match empty, h with
  | 0, h | 1, h => exact if_pos (by omega)
  | _ + 2, _ => rfl

theorem State.writeRequest_locked (he : empty ≤ 1) (hi : i ≤ 15) (hl : s.prefs.locked i = true) :
    s.writeRequest i empty code tier = (s, bare .protectedCode) := by
  unfold State.writeRequest
  match empty, he with
  | 0, _ | 1, _ => exact (if_neg (by omega)).trans (if_pos hl)

theorem State.writeRequest_empty (hi : i ≤ 15) (hl : s.prefs.locked i = false) :
    s.writeRequest i 1 code tier = (s.writeIndex i none, ⟨.ok, .prefWritten i none false⟩) :=
  (if_neg (by omega)).trans (if_neg (by simp [hl]))

theorem State.writeRequest_code (hi : i ≤ 15) (hl : s.prefs.locked i = false) :
    s.writeRequest i 0 code tier = s.writeCode i code tier :=
  (if_neg (by omega)).trans (if_neg (by simp [hl]))

variable {code}

theorem State.writeCode_outOfRange (h : 999999 < code) : s.writeCode i code tier = (s, bare .range) := if_pos h

theorem State.writeCode_duplicate (hc : code ≤ 999999) (hd : s.prefs.duplicate i code = true) :
    s.writeCode i code tier = (s, bare .duplicate) :=
  (if_neg (by omega)).trans (if_pos hd)

theorem State.writeCode_taken (hc : code ≤ 999999) (hd : s.prefs.duplicate i code = false) :
    s.writeCode i code tier = (s.writeIndex i (some ⟨code, min 3 tier⟩),
      ⟨.ok, .prefWritten i (some ⟨code, min 3 tier⟩) (decide (3 < tier))⟩) :=
  (if_neg (by omega)).trans (if_neg (by simp [hd]))

end Checks

/-- Settles O27: each check of R43 is a lemma on the request; a taken write changes the list and the slots alone, where
every entry has the tier event of its own code. -/
theorem writePreference : Obligations.WritePreference := by
  intro s i empty code tier locked listens sound hlocked refused taken
  have hlock : (s.opened .station).prefs.locked i = locked := by
    rw [s.opened_prefs]
    exact Bool.eq_iff_iff.2 ((s.prefs.locked_iff i).trans hlocked.symm)
  have hdup (c : Nat) : (s.opened .station).prefs.duplicate i c = true
      ↔ ∃ j q, j ≠ i ∧ s.prefs.at j = some q ∧ q.code = c := by
    rw [s.opened_prefs]
    exact s.prefs.duplicate_iff i c
  have htable : (s.opened .station).TableSound := by
    unfold State.TableSound
    rw [s.opened_prefs, s.opened_table]
    exact sound.table
  have refuse (c : RespCode) (h : (s.opened .station).writeRequest i empty code tier = (s.opened .station, bare c)) :
      refused c := State.next_station listens h
  have take (x : Option Preference) (clamped : Bool) (hi : i ≤ 15) (hx : (s.prefs.put i x).Sound)
      (h : (s.opened .station).writeRequest i empty code tier
        = ((s.opened .station).writeIndex i x, ⟨.ok, .prefWritten i x clamped⟩)) : taken x clamped := by
    have hprefs : ((s.opened .station).writeIndex i x).prefs = s.prefs.put i x := by
      rw [State.writeIndex_prefs, s.opened_prefs]
    have hentry (n : Nat) : ((s.opened .station).writeIndex i x).entry n = (s.entry n).map fun e =>
        e.setTier s.profile.biases e.network (tierOf (s.prefs.put i x) e.network) := by
      rw [State.writeIndex_entry htable x (by omega), s.opened_entry, s.opened_profile, s.opened_prefs]
    refine ⟨_, State.next_station listens h, ?frame, ?lock, fun j => ?list, fun n he => ?free, fun n e he => ?entries⟩
    case frame =>
      rw [← s.opened_table .station, State.writeIndex_prefs]
      exact State.writeIndex_eq _ i x
    case lock => rw [hprefs, Preferences.put_lock]
    case list => rw [hprefs, s.prefs.at_put_eq_ite x (by omega) j]
    case free => rw [hentry, he, Option.map_none]
    case entries =>
      rw [hentry, he, Option.map_some, Entry.setTier_self, hprefs]
      refine ⟨_, rfl, rfl, fun j q hq hcode => ?held, tierOf_of_absent, ?score⟩
      case held => rw [← hcode, tierOf_of_at hx hq]
      case score => cases hstate : e.state <;> simp [Entry.isRanked, hstate, scoreOf]
  refine ⟨fun h => ?range, fun he hi hl => ?locked, fun he hi hl => ?empty, fun he hi hl hc => ?codeRange,
    fun he hi hl hc => ⟨fun hd => ?duplicate, fun hd => ?taken⟩⟩
  case range => exact refuse _ (State.writeRequest_outOfRange code tier _ h)
  case locked => exact refuse _ (State.writeRequest_locked code tier he hi (hlock.trans hl))
  case empty =>
    subst he
    refine take none false hi ?_ (State.writeRequest_empty code tier hi (hlock.trans hl))
    exact s.prefs.put_sound i none sound.table.1 (fun _ h => nomatch h) fun _ h => nomatch h
  case codeRange =>
    subst he
    refine refuse _ ((State.writeRequest_code code tier hi (hlock.trans hl)).trans ?_)
    exact State.writeCode_outOfRange tier hc
  case duplicate =>
    subst he
    refine refuse _ ((State.writeRequest_code code tier hi (hlock.trans hl)).trans ?_)
    exact State.writeCode_duplicate tier hc ((hdup code).2 hd)
  case taken =>
    subst he
    have fresh : (s.opened .station).prefs.duplicate i code = false := by
      rw [← Bool.not_eq_true, hdup]
      rintro ⟨j, q, hj, hat, hq⟩
      exact hd j q hj hat hq
    refine take _ _ hi ?_ ((State.writeRequest_code code tier hi (hlock.trans hl)).trans
      (State.writeCode_taken tier hc fresh))
    rw [s.opened_prefs] at fresh
    refine s.prefs.put_sound i _ sound.table.1 ?_ ?_
    · rintro _ ⟨⟩; exact fresh
    · rintro _ ⟨⟩; exact ⟨hc, Nat.min_le_left 3 tier⟩

end Sys2Proof.Machine
end

section
/-! PROOFS. TAKE JOURNAL and SET JOURNAL MARK: what each answers and leaves at the journal, and the notice that follows
the unread count. -/

namespace Sys2Proof.Machine

/-! ### The two requests at the journal (R151, R152) -/

section Journal

variable {s : State} {mark : Nat}

/-- The test of the JOURNAL condition writes one pending notice of the station port (R153). -/
theorem State.testJournal_eq_mapPort (s : State) :
    s.testJournal = s.mapPort .station fun q =>
      { q with pending := { q.pending with journal := decide (s.journal.mark ≤ s.journal.records.length) } } := rfl

theorem State.takeRecord_of_nil (h : s.journal.records = []) : s.takeRecord = (s, bare .empty) := by
  unfold State.takeRecord
  rw [h]
  rfl

theorem State.takeRecord_of_cons {x : JournalRecord} {rest : List JournalRecord} (h : s.journal.records = x :: rest) :
    s.takeRecord = (({ s with journal := { s.journal with records := rest } } : State).testJournal,
      ⟨.ok, .record x rest.length⟩) := by
  unfold State.takeRecord
  rw [h]
  rfl

theorem State.markRequest_outOfRange (s : State) (h : mark = 0 ∨ 32 < mark) :
    s.markRequest mark = (s, bare .range) :=
  if_neg (by omega)

theorem State.markRequest_inRange (s : State) (low : 1 ≤ mark) (high : mark ≤ 32) :
    s.markRequest mark = (({ s with journal := { s.journal with mark := mark } } : State).testJournal,
      ⟨.ok, .mark mark s.journal.records.length⟩) :=
  if_pos ⟨low, high⟩

end Journal

/-- Settles O21: the opened period keeps the journal, so each case of a request at the journal gives its outcome at the
station port; at a radio port it is DENIED. -/
theorem journalRequests : Obligations.JournalRequests := by
  refine ⟨⟨fun s h => ⟨fun empty => ?empty, fun x rest full => ?taken⟩, fun s r h hl => ?takeDenied⟩,
    fun s mark h => ⟨fun out => ?range, fun low high => ?marked⟩, fun s r mark h hl => ?markDenied⟩
  case empty =>
    rw [← s.opened_journal .station] at empty
    exact State.next_station h (State.takeRecord_of_nil empty)
  case taken =>
    rw [← s.opened_journal .station] at full
    have outcome := State.takeRecord_of_cons full
    rw [State.testJournal_eq_mapPort, s.opened_journal] at outcome
    exact State.next_station h outcome
  case range => exact State.next_station h (State.markRequest_outOfRange _ out)
  case marked =>
    have outcome := (s.opened .station).markRequest_inRange low high
    rw [State.testJournal_eq_mapPort, s.opened_journal] at outcome
    exact State.next_station h outcome
  case takeDenied => exact congrArg Host.Outcome.next (State.stationRequest_radio h hl _)
  case markDenied => exact congrArg Host.Outcome.next (State.stationRequest_radio h hl _)

end Sys2Proof.Machine
end

section
/-! PROOFS. Every command keeps the soundness of the blocks, the queue and the running time; the fields with one owner; and
the lock of the preference list. -/

namespace Sys2Proof.Machine

/-! ### A command and its queue -/

/-- Settles O1: an empty queue aside, `step` is `exec` on the rest of the queue. -/
theorem stepRunsFrontCommand : Obligations.StepRunsFrontCommand := by
  intro c rest s front
  unfold step
  rw [front]

/-! ### What every command keeps -/

/-- `Keeps` holds across inner updates and changes of a port. -/
theorem keeps_closed : Closed Keeps where
  refl := .refl
  trans := .trans
  inner := Inner.keeps
  port s p f h := .mapPort s p f fun x => (h x).1
  follow s := s.followLines_keeps

/-- Every command keeps what `Keeps` says, the two of the reset input apart. -/
theorem exec_keeps {i : Instr} {s t : State} (on : i ≠ .powerOnReset) (asserted : i ≠ .resetInputAsserted)
    (h : exec i s = .next t) : Keeps s t := by
  have c := keeps_closed
  by_cases plain : isOwnersCommand i = false
  · exact c.exec i plain s t h
  unfold isOwnersCommand at plain
  split at plain
  case h_15 => exact absurd rfl plain
  all_goals
    injection h with h
    subst h
  case h_1 => exact absurd rfl on
  case h_2 p k =>
    exact c.request s p _ _ (fun s => s.enableNotices_keeps p k) fun r s =>
      c.announced _ _ _ fun s => s.enableNotices_keeps p k
  case h_3 p f => exact c.stationRequest s p _ fun s => s.profileRequest_keeps f
  case h_4 p a b d e => exact c.stationRequest s p _ fun s => s.writeRequest_keeps a b d e
  case h_5 p a b => exact c.stationRequest s p _ fun s => s.lockRequest_keeps a b
  case h_6 l v =>
    exact .ite (fun _ => s.setLine_keeps l _) fun _ => (s.setLine_keeps l _).trans (State.followLines_keeps _)
  case h_7 l => exact c.event s _ fun s => s.qualifyExpired_keeps l
  case h_8 p => exact c.stationRequest s p _ State.takeRecord_keeps
  case h_9 p m => exact c.stationRequest s p _ fun s => s.markRequest_keeps m
  case h_10 p a b => exact c.stationRequest s p _ fun s => s.linkCheckRequest_keeps a b
  case h_11 r => exact c.event s _ fun s => s.setLinkCheck_keeps r none
  case h_12 p => exact c.stationRequest s p _ State.startRequest_keeps
  case h_13 p => exact c.stationRequest s p _ State.resetRequest_keeps
  case h_14 => exact absurd rfl asserted

/-! ### The output lines after a command -/

/-- How a command other than the resets and a line's runs, by its port and by who may send it (R166): a selection, a
request, another select period, or an event. -/
inductive Runs (i : Instr) : Option Port → Option Senders → Prop where
  | select (p : Port) (is : i = .selectAssert p)
      (runs : ∀ s, exec i s = .next (s.mapPort p (PortState.assert s.resetAsserted))) : Runs i (some p) none
  | station (p : Port) (f : Handler) (runs : ∀ s, exec i s = .next (s.stationRequest p f)) : Runs i (some p) (some .stationOnly)
  | radio (p : Port) (g : Radio → Handler) (runs : ∀ s, exec i s = .next (s.radioRequest p g)) :
      Runs i (some p) (some .radioOnly)
  | every (p : Port) (f : Handler) (g : Radio → Handler) (runs : ∀ s, exec i s = .next (s.request p f (announced g))) :
      Runs i (some p) (some .every)
  | announce (p : Port) (g : List Nat) (n : Nat) (is : i = .announce p g n) (f : State → State)
      (runs : ∀ s, exec i s = .next (s.period p f)) : Runs i (some p) (some .radioOnly)
  | period (p : Port) (f : State → State) (runs : ∀ s, exec i s = .next (s.period p f)) : Runs i (some p) none
  | event (f : State → State) (runs : ∀ s, exec i s = .next (s.event f)) : Runs i none none

theorem exec_runs {i : Instr} (on : i ≠ .powerOnReset) (asserted : i ≠ .resetInputAsserted)
    (line : ∀ l v, i ≠ .supplyLineChange l v) : Runs i i.port (senders i) := by
  cases i
  case powerOnReset => exact absurd rfl on
  case resetInputAsserted => exact absurd rfl asserted
  case supplyLineChange => exact absurd rfl (line _ _)
  case selectAssert => exact .select _ rfl fun _ => rfl
  case announce => exact .announce _ _ _ rfl _ fun _ => rfl
  all_goals first
    | exact .event _ fun _ => rfl
    | exact .station _ _ fun _ => rfl
    | exact .radio _ _ fun _ => rfl
    | exact .every _ _ _ fun _ => rfl
    | exact .period _ _ fun _ => rfl

/-- A command of a port is neither a reset nor a change of a line. -/
theorem exec_runs_port {i : Instr} {p : Port} (on : i.port = some p) : Runs i (some p) (senders i) := by
  rw [← on]
  refine exec_runs ?_ ?_ ?_
  all_goals
    intros
    rintro rfl
    cases on

/-- How such a command ends: a port is selected, or a period or an event ends. -/
inductive Ends (s : State) : State → Prop where
  | select (p : Port) : Ends s (s.mapPort p (PortState.assert s.resetAsserted))
  | period (p : Port) (f : State → State) : Ends s (s.period p f)
  | event (f : State → State) : Ends s (s.event f)

theorem Ends.request (s : State) (p : Port) (f : Handler) (g : Radio → Handler) : Ends s (s.request p f g) := by
  unfold State.request
  exact .period _ _

theorem exec_ends {i : Instr} (s : State) (on : i ≠ .powerOnReset) (asserted : i ≠ .resetInputAsserted)
    (line : ∀ l v, i ≠ .supplyLineChange l v) : ∃ t, exec i s = .next t ∧ Ends s t := by
  have runs := exec_runs on asserted line
  generalize i.port = o, senders i = v at runs
  cases runs with
  | select p is runs => exact ⟨_, runs s, .select p⟩
  | station p f runs => exact ⟨_, runs s, .request s p _ _⟩
  | radio p g runs => exact ⟨_, runs s, .request s p _ _⟩
  | every p f g runs => exact ⟨_, runs s, .request s p _ _⟩
  | announce p g n is f runs => exact ⟨_, runs s, .period p f⟩
  | period p f runs => exact ⟨_, runs s, .period p f⟩
  | event f runs => exact ⟨_, runs s, .event f⟩

/-- No arm of `exec` faults or is refused. -/
theorem exec_total (i : Instr) (s : State) : ∃ t, exec i s = .next t := by
  by_cases on : i = .powerOnReset
  · exact ⟨_, by rw [on]; rfl⟩
  by_cases asserted : i = .resetInputAsserted
  · exact ⟨_, by rw [asserted]; rfl⟩
  by_cases line : ∃ l v, i = .supplyLineChange l v
  · obtain ⟨l, v, rfl⟩ := line
    exact ⟨_, rfl⟩
  · obtain ⟨t, next, -⟩ := exec_ends s on asserted fun l v h => line ⟨l, v, h⟩
    exact ⟨t, next⟩

/-- Settles O2: the two commands of the reset input by their definitions, the others by `exec_keeps`. -/
theorem everyCommandCompletes : Obligations.EveryCommandCompletes := by
  intro i s
  obtain ⟨t, h⟩ := exec_total i s
  refine ⟨t, h, ?_⟩
  by_cases on : i = .powerOnReset
  · subst on
    injection h with h
    subst h
    exact ⟨rfl, fun h => absurd rfl h⟩
  by_cases asserted : i = .resetInputAsserted
  · subst asserted
    injection h with h
    subst h
    exact ⟨rfl, fun _ => rfl⟩
  · have k := exec_keeps on asserted h
    exact ⟨k.pending, fun _ => k.clock⟩

theorem PortState.assert_attention (b : Bool) (x : PortState) : (x.assert b).attention = x.attention := by
  unfold PortState.assert
  split <;> rfl

theorem PortState.assert_sets (b : Bool) (x : PortState) :
    (x.assert b).pending = x.pending ∧ (x.assert b).enabled = x.enabled := by
  unfold PortState.assert
  split <;> exact ⟨rfl, rfl⟩

theorem PortState.assert_selected (b : Bool) (x : PortState) : (x.assert b).selected = true := by
  unfold PortState.assert
  split
  · assumption
  · rfl

/-- Where the reset input is asserted, a period or an event leaves the lines as they are; elsewhere they follow. -/
theorem Ends.sound {s t : State} (e : Ends s t) (k : Keeps s t) (h : s.Sound) : t.Sound := by
  cases e with
  | select p =>
    exact s.mapPort_sound p _ h (fun x => (x.assert_sets _).1) (fun x => (x.assert_sets _).2)
      (fun x => x.assert_attention _) fun _ x off => absurd (off.symm.trans (x.assert_selected _)) (by decide)
  | period p f =>
    unfold State.period at k ⊢
    by_cases r : s.resetAsserted = true
    · rw [if_pos r]
      exact s.mapPort_sound p _ h (fun _ => rfl) (fun _ => rfl) (fun _ => rfl) fun off => absurd (r.symm.trans off) (by decide)
    · have r' : s.resetAsserted = false := by simpa using r
      rw [if_neg r] at k ⊢
      have lines := State.linesSound_of (k.reset.trans r') (k.lines (h.follow r'))
      refine State.sound_of (k.blocks h.blocks) lines ?_
      have reset := k.reset.trans r'
      split
      all_goals
        refine State.followLines_attention _ ?_
        simp_all
  | event f =>
    unfold State.event at k ⊢
    split
    · exact h
    · next r =>
      have r' : s.resetAsserted = false := by simpa using r
      rw [if_neg r] at k
      have reset := k.reset.trans r'
      refine State.sound_of (k.blocks h.blocks) (State.linesSound_of reset (k.lines (h.follow r'))) ?_
      exact State.followLines_attention _ (by simpa using reset)

/-! ### Soundness -/

/-- A supply line holds nothing that soundness speaks of. -/
theorem State.Sound.setLine {s : State} (h : s.Sound) (l : Line) (x : SupplyLine) : (s.setLine l x).Sound :=
  State.sound_of ((s.setLine_keeps l x).blocks h.blocks) h.lines h.attention

theorem sound_execSupplyLineChange {s t : State} {l : Line} {v : Bool} (h : s.Sound)
    (e : exec (.supplyLineChange l v) s = .next t) : t.Sound := by
  injection e with e
  subst e
  split
  · exact h.setLine l _
  · next r => exact (s.setLine_keeps l _).sound h (by simpa using r)

theorem sound_execResetInputAsserted {s t : State} (h : s.Sound) (e : exec .resetInputAsserted s = .next t) : t.Sound := by
  injection e with e
  subst e
  refine ⟨h.table, h.timers, fun r => ?_, h.attempts, ⟨rfl, rfl⟩, h.journal, fun p => ?_⟩
  · have := h.queues r
    cases r <;> exact this
  · rcases p with _ | (_ | _) <;> rfl

/-- The power-on values are sound, whatever the input lines (R176). -/
theorem powerOn_sound (lowv critv : Bool) (selected : PerPort Bool) (pending : List Instr) :
    (State.powerOn lowv critv selected pending).Sound where
  table := by
    refine ⟨⟨?_, ?_⟩, slotsSound_initial _⟩
    · show Preferences.initial.codes.Nodup
      decide
    · show ∀ c ∈ Preferences.initial.list.toList.filterMap id, _
      decide
  timers r := by cases r <;> exact timersSound_initial
  queues r := by cases r <;> exact ⟨List.nodup_nil, rfl⟩
  attempts := attemptsSound_initial
  lines := ⟨rfl, rfl⟩
  journal := ⟨⟨Nat.zero_le _, fun _ h => nomatch h⟩, ⟨Nat.le_add_left 1 23, Nat.le_add_right 24 8⟩, rfl⟩
  attention p := by rcases p with _ | (_ | _) <;> exact fun _ => rfl

/-- Every command leaves a sound state sound. -/
theorem exec_sound {i : Instr} {s t : State} (h : s.Sound) (e : exec i s = .next t) : t.Sound := by
  by_cases on : i = .powerOnReset
  · subst on
    injection e with e
    subst e
    exact powerOn_sound _ _ _ _
  by_cases asserted : i = .resetInputAsserted
  · subst asserted
    exact sound_execResetInputAsserted h e
  by_cases line : ∃ l v, i = .supplyLineChange l v
  · obtain ⟨l, v, rfl⟩ := line
    exact sound_execSupplyLineChange h e
  · obtain ⟨u, next, ends⟩ := exec_ends s on asserted fun l v hi => line ⟨l, v, hi⟩
    obtain rfl : u = t := Host.Outcome.next.inj (next.symm.trans e)
    exact ends.sound (exec_keeps on asserted e) h

/-- Settles O7: a step is a millisecond or a command, and each leaves a sound state sound. -/
theorem stepKeepsSound : Obligations.StepKeepsSound := by
  intro s t h e
  unfold step at e
  split at e
  · next c rest _ => exact exec_sound (s := { s with pending := rest }) ⟨h.table, h.timers, h.queues, h.attempts, h.lines, h.journal, h.attention⟩ e
  · injection e with e
    subst e
    exact s.tick_sound h

/-! ### Fields with one owner -/

/-- The fields that one owner alone changes, the enable set of each port apart. -/
inductive OwnedField where
  | profile | prefs | supply | mark | enabled (p : Port) | linkCheck
deriving DecidableEq

/-- The field is as before. -/
def OwnedField.Same : OwnedField → State → State → Prop
  | .profile, s, t => t.profile = s.profile
  | .prefs, s, t => t.prefs = s.prefs
  | .supply, s, t => t.supply = s.supply
  | .mark, s, t => t.journal.mark = s.journal.mark
  | .enabled p, s, t => (t.port p).enabled = (s.port p).enabled
  | .linkCheck, s, t => t.linkCheck = s.linkCheck

/-- At most the field named has changed. -/
def Touches (o : Option OwnedField) (s t : State) : Prop := ∀ g, o ≠ some g → g.Same s t

theorem OwnedField.Same.refl (g : OwnedField) (s : State) : g.Same s s := by cases g <;> exact rfl

theorem OwnedField.Same.trans {g : OwnedField} {s t u : State} (h : g.Same s t) (k : g.Same t u) : g.Same s u := by
  cases g <;> exact Eq.trans k h

theorem Touches.inner {o : Option OwnedField} {s t : State} (h : Inner s t) : Touches o s t := by
  intro g _
  have same := h.same
  cases g with
  | profile => exact same.profile
  | prefs => exact same.prefs
  | supply => exact same.supply
  | mark => exact same.mark
  | enabled p => exact (congrArg PortState.enabled (same.port p) :)
  | linkCheck => exact same.linkCheck

/-- A change of a port that leaves its enable set. -/
theorem Touches.mapPort (o : Option OwnedField) (s : State) (p : Port) (f : PortState → PortState)
    (h : ∀ x, (f x).enabled = x.enabled) : Touches o s (s.mapPort p f) := by
  intro g _
  cases g with
  | enabled q =>
    show ((s.mapPort p f).port q).enabled = _
    rw [State.port_mapPort]
    split
    · exact h _
    · rfl
  | mark => exact congrArg Journal.mark (s.mapPort_journal p f)
  | _ => simp [OwnedField.Same]

theorem touches_closed (o : Option OwnedField) : Closed (Touches o) where
  refl s g _ := .refl g s
  trans h k g hg := (h g hg).trans (k g hg)
  inner := .inner
  port s p f h := .mapPort o s p f fun x => (h x).2
  follow s g _ := by
    cases g with
    | enabled q => exact (s.followLines_port_sets q).2.1
    | mark => exact congrArg Journal.mark s.followLines_journal
    | _ => simp [OwnedField.Same]

/-- The field that a command may change, power-on reset apart. -/
def ownedBy : Instr → Option OwnedField
  | .setProfile _ _ => some .profile
  | .writePreference _ _ _ _ _ | .lockPreferences _ _ _ => some .prefs
  | .supplyLineChange _ _ | .qualifyingTimerExpiry _ => some .supply
  | .setJournalMark _ _ => some .mark
  | .setNoticeEnables p _ => some (.enabled p)
  | .linkCheck _ _ _ | .linkCheckTimerExpiry _ | .callStart _ | .resetPart _ => some .linkCheck
  | _ => none

theorem enableNotices_touches (s : State) (p : Port) (k : Nat) :
    Touches (some (.enabled p)) s (s.enableNotices p k).1 := by
  unfold State.enableNotices
  split
  · intro g hg
    cases g with
    | enabled q =>
      have other : q ≠ p := fun e => hg (by rw [e])
      show ((s.mapPort p _).port q).enabled = _
      rw [State.port_mapPort, if_neg other]
    | mark => exact congrArg Journal.mark (s.mapPort_journal p _)
    | _ => simp [OwnedField.Same]
  · exact (touches_closed _).refl s

theorem profileRequest_touches (s : State) (f : ProfileFields) : Touches (some .profile) s (s.profileRequest f).1 := by
  have c := touches_closed (some .profile)
  unfold State.profileRequest
  split
  · exact c.refl s
  split
  case h_2 => exact c.refl s
  case h_1 p _ =>
    unfold State.takeProfile
    dsimp only
    refine c.trans ?_ (c.inner (((State.testSilentHold_inner _ _).trans (State.testSilentHold_inner _ _)).trans
      ((State.testSilence_inner _ _).trans (State.testSilence_inner _ _))))
    refine c.trans (c.trans (t := s.reform fun s => { s with
      profile := p
      survey := { s.survey with operatePreload := some p.operate, pausePreload := some p.pause } }) ?_ ?_)
      (c.inner (.timers _ _ 0))
    · refine c.trans ?_ (c.inner (State.reform_inner s _))
      intro g hg
      cases g with
      | profile => exact absurd rfl hg
      | _ => exact rfl
    · refine c.inner (.mapTable _ _ fun e => ?_)
      rw [Option.map_eq_bind]
      refine (e.thresholds_keeps _).bind fun e => ?_
      dsimp only [Function.comp]
      split
      · exact .self _ e
      · exact .of (Entry.rescore_key _ _) Entry.Sound.rescore

/-- Tier events change the slots and the TABLE notice alone. -/
theorem tierEvents_same (s : State) (l : List Preference) {g : OwnedField} : g.Same s (s.tierEvents l) := by
  have rest := (mapTable_facts s fun e => some (l.foldl (fun e x => e.setTier s.profile.biases x.code x.tier) e)).2.1
  have ports : ∀ p, ((s.tierEvents l).port p).enabled = (s.port p).enabled := by
    intro p
    unfold State.tierEvents State.mapTable State.setSlots noteTable
    split
    · rfl
    · unfold State.post
      rw [State.port_setNotice]
      split <;> rfl
  cases g with
  | enabled p => exact ports p
  | mark => exact congrArg (fun x => x.journal.mark) rest
  | profile => exact (congrArg State.profile rest :)
  | prefs => exact (congrArg State.prefs rest :)
  | supply => exact (congrArg State.supply rest :)
  | linkCheck => exact (congrArg State.linkCheck rest :)

theorem writeIndex_touches (s : State) (i : Nat) (x : Option Preference) :
    Touches (some .prefs) s (s.writeIndex i x) := by
  intro g hg
  refine OwnedField.Same.trans (t := { s with prefs := s.prefs.put i x }) ?_ (tierEvents_same _ _)
  cases g with
  | prefs => exact absurd rfl hg
  | _ => exact rfl

theorem writeIndex_prefs (s : State) (i : Nat) (x : Option Preference) :
    (s.writeIndex i x).prefs = s.prefs.put i x := tierEvents_same (g := .prefs) _ _

theorem writeRequest_touches (s : State) (i e c t : Nat) : Touches (some .prefs) s (s.writeRequest i e c t).1 := by
  have k := touches_closed (some .prefs)
  unfold State.writeRequest State.writeCode
  split
  · exact k.refl s
  dsimp only
  repeat' split
  all_goals first | exact k.refl s | exact writeIndex_touches _ _ _

theorem lockRequest_touches (s : State) (b d : Nat) : Touches (some .prefs) s (s.lockRequest b d).1 := by
  have k := touches_closed (some .prefs)
  unfold State.lockRequest
  split
  · exact k.refl s
  · exact k.refl s
  split
  · exact k.refl s
  · intro g hg
    cases g with
    | prefs => exact absurd rfl hg
    | _ => exact rfl

theorem setLine_touches (s : State) (l : Line) (x : SupplyLine) : Touches (some .supply) s (s.setLine l x) := by
  intro g hg
  cases g with
  | supply => exact absurd rfl hg
  | _ => exact rfl

theorem qualifyExpired_touches (s : State) (l : Line) : Touches (some .supply) s (s.qualifyExpired l) := by
  have k := touches_closed (some .supply)
  unfold State.qualifyExpired State.qualify
  split
  case isFalse => exact k.refl s
  dsimp only
  refine k.trans (setLine_touches s l ⟨(s.supply.line l).raw, (s.supply.line l).raw, none⟩) ?_
  generalize s.setLine l _ = u
  unfold State.formCondition
  dsimp only
  split
  · exact k.refl u
  refine k.trans ?_ (k.inner (((State.retainOnCondition_inner _ _).trans (State.staggerOnCondition_inner _ _)).trans
    ((State.snoozeTest_inner _ _).trans (State.post_inner _ _))))
  refine k.trans ?_ (k.inner (State.reform_inner u _))
  intro g hg
  cases g with
  | supply => exact absurd rfl hg
  | _ => exact rfl

theorem setLinkCheck_touches (s : State) (x : PerRadio (Option Nat)) :
    Touches (some .linkCheck) s { s with linkCheck := x } := by
  intro g hg
  cases g with
  | linkCheck => exact absurd rfl hg
  | _ => exact rfl

theorem linkCheckRequest_touches (s : State) (a b : Nat) :
    Touches (some .linkCheck) s (s.linkCheckRequest a b).1 := by
  have k := touches_closed (some .linkCheck)
  unfold State.linkCheckRequest
  repeat' split
  all_goals first | exact k.refl s | exact setLinkCheck_touches _ _

theorem beginCall_touches (s : State) : Touches (some .linkCheck) s s.beginCall := by
  have k := touches_closed (some .linkCheck)
  unfold State.beginCall State.handling settle State.prepareCall
  dsimp only
  refine k.trans ?_ (k.inner ((Inner.ite_self fun _ => State.callEvent_inner _ _).trans
    (Inner.ite_self fun _ => State.callEvent_inner _ _)))
  refine k.trans (setLinkCheck_touches s ⟨none, none⟩) (k.inner ?_)
  exact ((State.snoozeTest_inner _ _).trans (.mapCall _ _)).trans (State.runSelection_inner _)

theorem startRequest_touches (s : State) : Touches (some .linkCheck) s s.startRequest.1 := by
  have k := touches_closed (some .linkCheck)
  unfold State.startRequest
  split
  case h_1 => exact beginCall_touches s
  case h_2 =>
    unfold State.startInCallback
    split
    case h_2 => exact beginCall_touches s
    split
    · exact k.inner (State.answerOffer_inner _ _)
    · exact k.trans (k.inner (State.endPartForCall_inner _ _)) (beginCall_touches _)
    · exact k.trans (k.inner (State.endPartForCall_inner _ _)) (beginCall_touches _)
  all_goals exact k.refl s

theorem softReset_touches (s : State) : Touches (some .linkCheck) s s.softReset := by
  have k := touches_closed (some .linkCheck)
  unfold State.softReset State.postSoftReset
  refine k.trans ?_ (k.inner (Inner.ite_self fun _ => State.post_inner _ _))
  intro g hg
  cases g with
  | linkCheck => exact absurd rfl hg
  | enabled p => rcases p with _ | (_ | _) <;> exact rfl
  | _ => exact rfl

theorem resetRequest_touches (s : State) : Touches (some .linkCheck) s s.resetRequest.1 := by
  unfold State.resetRequest
  split
  · exact softReset_touches s
  · exact (touches_closed _).refl s

theorem testJournal_touches (o : Option OwnedField) (s : State) : Touches o s s.testJournal := by
  rw [State.testJournal_eq_mapPort]
  exact .mapPort _ _ _ _ fun _ => rfl

theorem takeRecord_touches (s : State) : Touches none s s.takeRecord.1 := by
  have k := touches_closed none
  unfold State.takeRecord
  split
  · exact k.refl s
  · next rest _ =>
    refine k.trans (t := { s with journal := { s.journal with records := rest } }) ?_ (testJournal_touches _ _)
    intro g _
    cases g <;> exact rfl

theorem markRequest_touches (s : State) (m : Nat) : Touches (some .mark) s (s.markRequest m).1 := by
  have k := touches_closed (some .mark)
  unfold State.markRequest
  split
  · refine k.trans (t := { s with journal := { s.journal with mark := m } }) ?_ (testJournal_touches _ _)
    intro g hg
    cases g with
    | mark => exact absurd rfl hg
    | _ => exact rfl
  · exact k.refl s

/-- Every command but power-on reset changes at most the owned field that it owns. -/
theorem exec_touches {i : Instr} {s t : State} (on : i ≠ .powerOnReset) (h : exec i s = .next t) :
    Touches (ownedBy i) s t := by
  have c := touches_closed (ownedBy i)
  by_cases plain : isOwnersCommand i = false
  · exact c.exec i plain s t h
  unfold isOwnersCommand at plain
  split at plain
  case h_15 => exact absurd rfl plain
  all_goals
    injection h with h
    subst h
  case h_1 => exact absurd rfl on
  case h_2 p k =>
    exact c.request s p _ _ (fun s => enableNotices_touches s p k) fun r s =>
      c.announced _ _ _ fun s => enableNotices_touches s p k
  case h_3 p f => exact c.stationRequest s p _ fun s => profileRequest_touches s f
  case h_4 p a b d e => exact c.stationRequest s p _ fun s => writeRequest_touches s a b d e
  case h_5 p a b => exact c.stationRequest s p _ fun s => lockRequest_touches s a b
  case h_6 l v =>
    split
    · exact setLine_touches s l _
    · exact c.trans (setLine_touches s l _) (c.follow _)
  case h_7 l => exact c.event s _ fun s => qualifyExpired_touches s l
  case h_8 p => exact c.stationRequest s p _ takeRecord_touches
  case h_9 p m => exact c.stationRequest s p _ fun s => markRequest_touches s m
  case h_10 p a b => exact c.stationRequest s p _ fun s => linkCheckRequest_touches s a b
  case h_11 r => exact c.event s _ fun s => setLinkCheck_touches s _
  case h_12 p => exact c.stationRequest s p _ startRequest_touches
  case h_13 p => exact c.stationRequest s p _ resetRequest_touches
  case h_14 =>
    intro g _
    cases g with
    | enabled p => rcases p with _ | (_ | _) <;> exact rfl
    | _ => exact rfl

/-- The commands of the owner of a field. -/
def OwnedField.Command (i : Instr) : OwnedField → Prop
  | .profile => ∃ p f, i = .setProfile p f
  | .prefs => (∃ p a b c d, i = .writePreference p a b c d) ∨ ∃ p a b, i = .lockPreferences p a b
  | .supply => (∃ l v, i = .supplyLineChange l v) ∨ ∃ l, i = .qualifyingTimerExpiry l
  | .mark => ∃ p m, i = .setJournalMark p m
  | .enabled p => ∃ kinds, i = .setNoticeEnables p kinds
  | .linkCheck => (∃ p a b, i = .linkCheck p a b) ∨ (∃ r, i = .linkCheckTimerExpiry r) ∨ (∃ p, i = .callStart p)
    ∨ ∃ p, i = .resetPart p

theorem ownedBy_command {i : Instr} {f : OwnedField} (h : ownedBy i = some f) : f.Command i := by
  unfold ownedBy at h
  split at h <;> cases h
  next p f => exact ⟨p, f, rfl⟩
  next p a b c d => exact .inl ⟨p, a, b, c, d, rfl⟩
  next p a b => exact .inr ⟨p, a, b, rfl⟩
  next l v => exact .inl ⟨l, v, rfl⟩
  next l => exact .inr ⟨l, rfl⟩
  next p m => exact ⟨p, m, rfl⟩
  next p kinds => exact ⟨kinds, rfl⟩
  next p a b => exact .inl ⟨p, a, b, rfl⟩
  next r => exact .inr (.inl ⟨r, rfl⟩)
  next p => exact .inr (.inr (.inl ⟨p, rfl⟩))
  next p => exact .inr (.inr (.inr ⟨p, rfl⟩))

/-- Settles O3: each clause names the commands whose owned field it is, so every other command leaves the field. -/
theorem ownersAlone : Obligations.OwnersAlone := by
  intro i s t h on
  have keeps (f : OwnedField) (not : ¬ f.Command i) := exec_touches on h f fun own => not (ownedBy_command own)
  refine ⟨fun own => keeps .profile ?_, fun write lock => keeps .prefs ?_, fun line qualify => keeps .supply ?_,
    fun own => keeps .mark ?_, fun p own => keeps (.enabled p) ?_, fun link expiry start reset => keeps .linkCheck ?_⟩
  · exact fun ⟨p, f, e⟩ => own p f e
  · rintro (⟨p, a, b, c, d, e⟩ | ⟨p, a, b, e⟩)
    · exact write p a b c d e
    · exact lock p a b e
  · rintro (⟨l, v, e⟩ | ⟨l, e⟩)
    · exact line l v e
    · exact qualify l e
  · exact fun ⟨p, m, e⟩ => own p m e
  · exact fun ⟨kinds, e⟩ => own kinds e
  · rintro (⟨p, a, b, e⟩ | ⟨r, e⟩ | ⟨p, e⟩ | ⟨p, e⟩)
    · exact link p a b e
    · exact expiry r e
    · exact start p e
    · exact reset p e

/-! ### The lock -/

/-- A lock that stands in `s` stands in `t`, over the same contents (R49). -/
def LockKept (s t : State) : Prop :=
  ∀ l, s.prefs.lock = some l → t.prefs.lock = some l ∧ ∀ n, s.prefs.locked n = true → t.prefs.at n = s.prefs.at n

theorem LockKept.of_prefs {s t : State} (h : t.prefs = s.prefs) : LockKept s t := by
  intro l hl
  rw [h]
  exact ⟨hl, fun _ _ => rfl⟩

theorem lockKept_closed : Closed LockKept where
  refl s := .of_prefs rfl
  trans {s t u} h k l hl := by
    obtain ⟨ht, hc⟩ := h l hl
    obtain ⟨hu, hd⟩ := k l ht
    refine ⟨hu, fun n locked => (hd n ?_).trans (hc n locked)⟩
    unfold Preferences.locked at *
    rwa [ht, ← hl]
  inner h := .of_prefs h.same.prefs
  port s p f _ := .of_prefs (s.mapPort_prefs p f)
  follow s := .of_prefs s.followLines_prefs

/-- A write of one index leaves the lock and every other index (R44, R45). -/
theorem Preferences.put_rest (l : Preferences) (i : Nat) (x : Option Preference) :
    (l.put i x).lock = l.lock ∧ ∀ n, n ≠ i → (l.put i x).at n = l.at n := by
  unfold Preferences.put
  split
  · refine ⟨rfl, fun n hn => ?_⟩
    simp [Preferences.at, Vector.toList_set, List.getElem?_set_ne (Ne.symm hn)]
  · exact ⟨rfl, fun _ _ => rfl⟩

theorem writeIndex_lockKept (s : State) (i : Nat) (x : Option Preference) (free : s.prefs.locked i = false) :
    LockKept s (s.writeIndex i x) := by
  intro l hl
  rw [writeIndex_prefs]
  obtain ⟨hlock, rest⟩ := s.prefs.put_rest i x
  refine ⟨hlock.trans hl, fun n locked => rest n ?_⟩
  rintro rfl
  simp [locked] at free

/-- A taken write names an index that no lock covers (R43). -/
theorem writeRequest_lockKept (s : State) (i e c t : Nat) : LockKept s (s.writeRequest i e c t).1 := by
  have k := lockKept_closed
  unfold State.writeRequest State.writeCode
  split
  · exact k.refl s
  dsimp only
  split
  · exact k.refl s
  split
  · exact k.refl s
  · next free =>
    have free : s.prefs.locked i = false := by simpa using free
    repeat' split
    all_goals first | exact k.refl s | exact writeIndex_lockKept s i _ free

/-- A lock is taken only where none stands (R49). -/
theorem lockRequest_lockKept (s : State) (b d : Nat) : LockKept s (s.lockRequest b d).1 := by
  intro l hl
  have refused : s.lockRequest b d = (s, only .protectedCode) := by
    unfold State.lockRequest
    rw [hl]
  rw [refused]
  exact ⟨hl, fun _ _ => rfl⟩

/-- Every command but power-on reset keeps a lock and what it covers. -/
theorem exec_lockKept {i : Instr} {s t : State} (on : i ≠ .powerOnReset) (h : exec i s = .next t) : LockKept s t := by
  have c := lockKept_closed
  by_cases write : ∃ p a b d e, i = .writePreference p a b d e
  · obtain ⟨p, a, b, d, e, rfl⟩ := write
    injection h with h
    subst h
    exact c.stationRequest s p _ fun s => writeRequest_lockKept s a b d e
  by_cases lock : ∃ p a b, i = .lockPreferences p a b
  · obtain ⟨p, a, b, rfl⟩ := lock
    injection h with h
    subst h
    exact c.stationRequest s p _ fun s => lockRequest_lockKept s a b
  exact .of_prefs (exec_touches on h .prefs fun own => (ownedBy_command own).elim write lock)

/-- Settles O26: `LockKept` across every command, with what it is for a lock to cover an index. -/
theorem lockHolds : Obligations.LockHolds := by
  intro i s t l h on hl
  obtain ⟨lock, content⟩ := exec_lockKept on h l hl
  exact ⟨lock, fun n covered => content n ((s.prefs.locked_iff n).2 ⟨l, hl, covered⟩)⟩

end Sys2Proof.Machine
end

section
/-! PROOFS. The reset input and the values after reset; which requests a port may send; the select periods; link-check
mode; the soft reset; the lock and the supply lines. -/

namespace Sys2Proof.Machine

/-! ### Power-on values -/

theorem reset_entry (i : Nat) : State.reset.entry i = none := slotAt_initial i

theorem initial_at (i : Nat) : Preferences.initial.at i = none := by
  show (Vector.replicate 16 none).toList[i]?.join = none
  rw [Vector.toList_replicate, List.getElem?_replicate]
  split <;> rfl

/-- Settles O5: the values of `State.reset` read off its definition. -/
theorem resetState : Obligations.ResetState := by
  refine ⟨reset_entry, rfl, ?hold, initial_at, rfl, ?radio, rfl, rfl, ?survey, rfl, rfl, rfl, rfl, rfl, rfl, rfl, rfl, rfl,
    rfl, rfl, rfl, rfl, ?failures, rfl, rfl, rfl, rfl, rfl, rfl, rfl, rfl, rfl, rfl, rfl, rfl, rfl, rfl, rfl, rfl, ?line,
    rfl, ?link, ?notices, ?port, rfl⟩
  case hold => intro r; cases r <;> rfl
  case radio => intro r; cases r <;> exact ⟨rfl, rfl, rfl, rfl, rfl, rfl, rfl, rfl⟩
  case survey => intro r; cases r <;> exact ⟨rfl, rfl⟩
  case failures => intro r; cases r <;> rfl
  case line => intro l; cases l <;> rfl
  case link => intro r; cases r <;> rfl
  case notices => intro p k; rcases p with _ | (_ | _) <;> cases k <;> rfl
  case port => intro p; rcases p with _ | (_ | _) <;> exact ⟨rfl, rfl, rfl⟩

theorem reset_radio (r : Radio) : State.reset.radio r = RadioContext.initial := by cases r <;> rfl

/-- After reset there is nothing that the clauses of `Linked` could speak of. -/
theorem reset_linked : State.reset.Linked where
  pins i := by
    constructor
    · rintro ⟨e, he, _⟩
      rw [reset_entry] at he
      cases he
    · rintro (⟨a, ha, _⟩ | ⟨p, k, hp, _⟩)
      · cases ha
      · cases hp
  targets a ha := nomatch ha
  heldSlot p k i e hp := nomatch hp
  attempting r := by
    rw [reset_radio]
    exact iff_of_false (fun h => nomatch h) fun ⟨a, ha, _⟩ => nomatch ha
  inCall r := by
    rw [reset_radio]
    refine iff_of_false (fun h => nomatch h) ?_
    rintro (⟨a, ha, _⟩ | ⟨p, o, hp, _⟩)
    · cases ha
    · cases hp
  surveying r := by
    rw [reset_radio]
    refine iff_of_false (fun h => nomatch h) ?_
    rintro ⟨u, w, x, h⟩
    cases r <;> cases h
  route r := iff_of_false (fun h => nomatch h) fun h => nomatch h.1
  attempts := rfl
  part h := nomatch h
  members p hp := nomatch hp
  queued r b c d e f n h := by
    rw [reset_radio] at h
    cases h
  ordered a ha := nomatch ha
  deadlines a ha := nomatch ha
  backoff := ⟨fun h => absurd rfl h, fun h => nomatch h⟩
  ending := ⟨fun h => absurd rfl h, fun h => nomatch h⟩
  awake a ha := nomatch ha
  noted n h := absurd rfl h

/-- Settles O6. -/
theorem resetSound : Obligations.ResetSound := ⟨powerOn_sound _ _ _ _, reset_linked⟩

/-! ### How a command of a port ends -/

/-- The commands that a port may send by R166, as the request that each is. -/
theorem exec_stationOnly {i : Instr} {p : Port} (may : senders i = some .stationOnly) (on : i.port = some p) :
    ∃ f : Handler, ∀ s, exec i s = .next (s.stationRequest p f) := by
  have runs := exec_runs_port on
  rw [may] at runs
  cases runs with
  | station _ f runs => exact ⟨f, runs⟩

theorem exec_radioOnly {i : Instr} {p : Port} (may : senders i = some .radioOnly) (on : i.port = some p)
    (other : ∀ p g n, i ≠ .announce p g n) : ∃ f : Radio → Handler, ∀ s, exec i s = .next (s.radioRequest p f) := by
  have runs := exec_runs_port on
  rw [may] at runs
  cases runs with
  | radio _ f runs => exact ⟨f, runs⟩
  | announce _ g n is => exact absurd is (other _ _ _)

theorem exec_every {i : Instr} {p : Port} (may : senders i = some .every) (on : i.port = some p) :
    ∃ (f : Handler) (g : Radio → Handler), ∀ s, exec i s = .next (s.request p f (announced g)) := by
  have runs := exec_runs_port on
  rw [may] at runs
  cases runs with
  | every _ f g runs => exact ⟨f, g, runs⟩

theorem request_period (s : State) (p : Port) (f : Handler) (g : Radio → Handler) : ∃ k, s.request p f g = s.period p k := by
  unfold State.request
  exact ⟨_, rfl⟩

/-- A command of a port, the assertion of select apart, is a select period. -/
theorem exec_period {i : Instr} {p : Port} (on : i.port = some p) (other : ∀ q, i ≠ .selectAssert q) (s : State) :
    ∃ f, exec i s = .next (s.period p f) := by
  have runs := exec_runs_port on
  generalize senders i = v at runs
  cases runs with
  | select _ is => exact absurd is (other p)
  | station _ f runs => exact (request_period s p _ _).imp fun k e => (runs s).trans (congrArg _ e)
  | radio _ g runs => exact (request_period s p _ _).imp fun k e => (runs s).trans (congrArg _ e)
  | every _ f g runs => exact (request_period s p _ _).imp fun k e => (runs s).trans (congrArg _ e)
  | announce _ g n is f runs => exact ⟨f, runs s⟩
  | period _ f runs => exact ⟨f, runs s⟩

/-! ### The reset input (R176) -/

/-- A period that is not taken only deselects its port (R176). -/
theorem period_ignored {s : State} {p : Port} (f : State → State)
    (h : s.resetAsserted = true ∨ (s.port p).ignoring = true) :
    s.period p f = s.mapPort p PortState.deselect ∨ s.period p f = (s.mapPort p PortState.deselect).followLines := by
  unfold State.period
  by_cases r : s.resetAsserted = true
  · exact .inl (if_pos r)
  · rw [if_neg r, if_pos (h.resolve_left r)]
    exact .inr rfl

theorem State.followLines_port (s : State) (q : Port) :
    s.followLines.port q = { s.port q with attention := (s.followLines.port q).attention } := by
  obtain ⟨pending, enabled, response, selected, ignoring, shift⟩ := s.followLines_port_sets q
  generalize s.followLines.port q = x at *
  generalize s.port q = y at *
  cases x
  cases y
  simp_all

/-- Settles O12: the two commands of the reset input by their definitions; a period that is not taken by
`period_ignored`. -/
theorem resetInput : Obligations.ResetInput := by
  refine ⟨fun s => ⟨_, rfl, rfl, fun p => ?_, rfl, rfl⟩, fun s => ⟨_, rfl, rfl, fun p => ?_⟩, fun s p i on other h => ?_⟩
  · rcases p with _ | (_ | _) <;> exact ⟨rfl, rfl⟩
  · rcases p with _ | (_ | _) <;> rfl
  · obtain ⟨f, e⟩ := exec_period on other s
    refine ⟨_, e, ?_⟩
    have deselected (q : Port) (hq : q ≠ p) : (s.mapPort p PortState.deselect).port q = s.port q := by
      rw [State.port_mapPort, if_neg hq]
    rcases period_ignored f h with e | e <;> rw [e]
    · refine ⟨?_, by simp, by simp, by simp, by simp, by simp, by simp, by simp, by simp, by simp, by simp, by simp,
        fun q hq => ?_⟩
      · rw [State.port_mapPort_self]
        rfl
      · rw [deselected q hq]
        exact ⟨rfl, rfl⟩
    · refine ⟨?_, by simp, by simp, by simp, by simp, by simp, by simp, by simp, by simp, by simp, by simp, by simp,
        fun q hq => ?_⟩
      · conv => lhs; rw [State.followLines_port]
        rw [State.port_mapPort_self]
        rfl
      · obtain ⟨pending, _, response, _⟩ := (s.mapPort p PortState.deselect).followLines_port_sets q
        rw [pending, response, deselected q hq]
        exact ⟨rfl, rfl⟩

/-! ### Select periods (R163) -/

theorem bare_noneCode_frame : emptyResponse.frame = [0x03#8, 0x0F#8, 0x12#8] := by decide +kernel

/-- Settles O10: the frames are computed. -/
theorem framesWrittenOut : Obligations.FramesWrittenOut := by
  refine ⟨fun p => ?_, by decide +kernel, by decide +kernel, by decide +kernel, by decide +kernel⟩
  rcases p with _ | (_ | _) <;> decide +kernel

theorem PortState.frame_eq (x : PortState) :
    x.frame = match x.response with
      | some r => r.frame
      | none => [0x03#8, 0x0F#8, 0x12#8] := by
  unfold PortState.frame
  cases x.response with
  | none => exact bare_noneCode_frame
  | some r => rfl

theorem State.mapPort_congr (s : State) (p : Port) {f g : PortState → PortState} (h : f (s.port p) = g (s.port p)) :
    s.mapPort p f = s.mapPort p g := by
  rcases p with _ | (_ | _) <;> simp only [State.mapPort, State.port] at * <;> rw [h]

/-- Settles O13: `PortState.assert` of a port whose select is deasserted, and the period whose handling is nothing. -/
theorem selectPeriods : Obligations.SelectPeriods := by
  refine ⟨fun s p on off => ?_, fun s p h => ⟨_, rfl, ?_, fun q => ?_⟩⟩
  · refine congrArg Host.Outcome.next (s.mapPort_congr p ?_)
    unfold PortState.assert
    rw [if_neg (by simp [off]), if_neg (by simp [on]), PortState.frame_eq] <;> rfl
  · rw [State.period_listens h]
    have opened : { s.opened p with ports := s.ports } = s := by rcases p with _ | (_ | _) <;> rfl
    have lines := (s.opened p).followLines_ports
    have := congrArg (fun x : State => { x with ports := s.ports }) lines
    exact this.trans opened
  · rw [State.period_listens h]
    have deasserted : (s.opened p).resetAsserted = false := by simpa using h.1
    obtain ⟨pending, enabled, response, selected, _⟩ := (s.opened p).followLines_port_sets q
    have sets : ((s.opened p).port q).pending = (s.port q).pending ∧ ((s.opened p).port q).enabled = (s.port q).enabled
        ∧ ((s.opened p).port q).attention = (s.port q).attention := by
      rw [State.port_opened]
      split <;> exact ⟨rfl, rfl, rfl⟩
    obtain ⟨hp, he, ha⟩ := sets
    have line := State.port_followLines (s.opened p) deasserted q
    refine ⟨?_, ?_, pending.trans hp, enabled.trans he, fun on => ?_, fun off => ?_⟩
    · show ((s.opened p).followLines.port q).response = _
      rw [response, State.port_opened]
      split <;> rfl
    · show ((s.opened p).followLines.port q).selected = _
      rw [selected, State.port_opened]
      split <;> rfl
    · have on : ((s.opened p).port q).selected = true := selected ▸ on
      show ((s.opened p).followLines.port q).attention = _
      rw [line, PortState.follow, if_pos on, ha]
    · have off : ((s.opened p).port q).selected = false := selected ▸ off
      show ((s.opened p).followLines.port q).attention = _
      rw [line, PortState.follow, if_neg (by simp [off]), ← hp, ← he]
      exact List.isSome_find? ..

/-! ### Requests refused on the port (R55, R165, R166) -/

theorem exec_announce_station {s : State} (h : s.Listens .station) (g : List Nat) (n : Nat) :
    exec (.announce .station g n) s = .next ((s.opened .station).answered .station (bare .denied)) :=
  congrArg Host.Outcome.next (State.period_listens h _)

theorem radioRequest_station {s : State} (h : s.Listens .station) (f : Radio → Handler) :
    s.radioRequest .station f = (s.opened .station).answered .station (bare .denied) :=
  State.request_station h _ _

/-- A request of a radio in OFF is answered NOT_ANNOUNCED (R55). -/
theorem request_off {s : State} {r : Radio} (h : s.Listens (.radio r)) (free : s.linkCheck.get r = none)
    (off : (s.radio r).state = .off) (f : Handler) (g : Radio → Handler) :
    s.request (.radio r) f (announced g) = (s.opened (.radio r)).answered (.radio r) (bare .notAnnounced) := by
  rw [State.request_radio h free]
  have refused : announced g r (s.opened (.radio r)) = (s.opened (.radio r), only .notAnnounced) := by
    unfold announced
    rw [if_pos (by simpa using off)]
  rw [refused]
  rfl

/-- Settles O14: each sort of request by the port it comes from. -/
theorem refusedOnThePort : Obligations.RefusedOnThePort := by
  refine ⟨fun s p h => ⟨?_, ?_⟩, fun s i may on h => ?station, fun s i r may on h free => ?denied,
    fun s i r may on other h free off => ?off⟩
  · exact congrArg Host.Outcome.next (State.period_listens h _)
  · exact congrArg Host.Outcome.next (State.period_listens h _)
  case station =>
    by_cases announce : ∃ p g n, i = .announce p g n
    · obtain ⟨p, g, n, rfl⟩ := announce
      obtain rfl := Option.some.inj on
      exact exec_announce_station h g n
    · obtain ⟨f, e⟩ := exec_radioOnly may on fun p g n hi => announce ⟨p, g, n, hi⟩
      rw [e, radioRequest_station h]
  case denied =>
    obtain ⟨f, e⟩ := exec_stationOnly may on
    rw [e, State.stationRequest_radio h free]
  case off =>
    rcases may with may | may
    · obtain ⟨f, g, e⟩ := exec_every may on
      rw [e, request_off h free off]
    · obtain ⟨f, e⟩ := exec_radioOnly may on other
      rw [e]
      exact congrArg Host.Outcome.next (request_off h free off _ _)

/-! ### Link-check mode (R169, R171) -/

/-- In link-check mode a request other than ANNOUNCE is answered PATTERN, once the radio has been heard (R171). -/
theorem exec_pattern {s : State} {i : Instr} {r : Radio} (may : (senders i).isSome = true) (on : i.port = some (.radio r))
    (h : s.Listens (.radio r)) (mode : (s.linkCheck.get r).isSome = true) (other : ∀ p g n, i ≠ .announce p g n) :
    exec i s = .next ((s.heardOn r).answered (.radio r) ⟨.pattern, .patternBytes⟩) := by
  obtain ⟨v, hv⟩ := Option.isSome_iff_exists.1 may
  cases v with
  | every =>
    obtain ⟨f, g, e⟩ := exec_every hv on
    rw [e, State.request_pattern h mode]
  | stationOnly =>
    obtain ⟨f, e⟩ := exec_stationOnly hv on
    rw [e]
    exact congrArg Host.Outcome.next (State.request_pattern h mode _ _)
  | radioOnly =>
    obtain ⟨f, e⟩ := exec_radioOnly hv on other
    rw [e]
    exact congrArg Host.Outcome.next (State.request_pattern h mode _ _)

theorem exec_announce_pattern {s : State} {r : Radio} (h : s.Listens (.radio r))
    (mode : (s.linkCheck.get r).isSome = true) (g : List Nat) (n : Nat) :
    exec (.announce (.radio r) g n) s
      = .next (((s.opened (.radio r)).heardAnnounce r).answered (.radio r) ⟨.pattern, .patternBytes⟩) := by
  refine congrArg Host.Outcome.next ((State.period_listens h _).trans ?_)
  have on : ((s.opened (.radio r)).linkCheck.get r).isSome = true := by simpa using mode
  simp only [State.answer, onRadioPort, if_pos on]
  rfl

theorem flagOf_eq_none {n : Nat} (h : 1 < n) : flagOf n = none := by
  match n, h with
  | _ + 2, _ => rfl

theorem flagOf_of_le {n : Nat} (h : n ≤ 1) : flagOf n = some (decide (n = 1)) := by
  obtain rfl | rfl : n = 0 ∨ n = 1 := by omega
  all_goals rfl

theorem linkCheckRequest_busy {s : State} (h : s.call.state ≠ .idle) (a b : Nat) :
    s.linkCheckRequest a b = (s, bare .busy) := if_pos h

theorem linkCheckRequest_range {s : State} (h : s.call.state = .idle) {a b : Nat} (out : 1 < a ∨ 1 < b) :
    s.linkCheckRequest a b = (s, bare .range) := by
  unfold State.linkCheckRequest
  rw [if_neg (by simp [h])]
  split
  · next hr hf =>
    rcases out with out | out
    · rw [radioOf_eq_none out] at hr
      cases hr
    · rw [flagOf_eq_none out] at hf
      cases hf
  · rfl

theorem linkCheckRequest_set {s : State} (h : s.call.state = .idle) (r : Radio) {b : Nat} (hb : b ≤ 1) :
    s.linkCheckRequest (Radio.code r) b = (s.setLinkCheck r (if b = 1 then some 0 else none), bare .ok) := by
  unfold State.linkCheckRequest
  rw [if_neg (by simp [h]), radioOf_code, flagOf_of_le hb]
  simp only [decide_eq_true_eq]
  rfl

/-- Settles O23: LINK CHECK by its checks in order, and the PATTERN answers by `exec_pattern`. -/
theorem linkCheckMode : Obligations.LinkCheckMode := by
  refine ⟨⟨fun s a b h => ⟨fun busy => ?_, fun idle out => ?_, ?_⟩, fun s r h => ?_⟩,
    fun s i r may on h mode => ⟨exec_pattern may on h mode, ?_⟩⟩
  · exact State.next_station h (linkCheckRequest_busy (by simpa using busy) a b)
  · exact State.next_station h (linkCheckRequest_range (by simpa using idle) out)
  · rintro r idle rfl low
    have set : (s.opened .station).linkCheckRequest (Radio.code r) b = _ := linkCheckRequest_set (by simpa using idle) r low
    rw [State.setLinkCheck, State.opened_linkCheck] at set
    exact State.next_station h set
  · exact State.next_event h rfl
  · rintro g n rfl
    exact exec_announce_pattern h mode g n

/-! ### The lock (R49) -/

theorem lockRequest_taken {s : State} {w d : Nat} {x : LockDirection} (free : s.prefs.lock = none) (low : w ≤ 16)
    (hd : lockDirectionOf d = some x) :
    s.lockRequest w d = ({ s with prefs := { s.prefs with lock := some ⟨w, x⟩ } },
      ⟨.ok, .prefLocked ⟨w, x⟩ (Lock.count ⟨w, x⟩)⟩) := by
  unfold State.lockRequest
  rw [free, hd]
  exact if_neg (by omega)

theorem lockRequest_protected {s : State} (set : s.prefs.lock.isSome = true) (w d : Nat) :
    s.lockRequest w d = (s, bare .protectedCode) := by
  obtain ⟨l, hl⟩ := Option.isSome_iff_exists.1 set
  unfold State.lockRequest
  rw [hl]
  rfl

theorem lockRequest_range {s : State} (free : s.prefs.lock = none) {w d : Nat} (out : 16 < w ∨ 1 < d) :
    s.lockRequest w d = (s, bare .range) := by
  unfold State.lockRequest
  rw [free]
  cases hd : lockDirectionOf d with
  | none => rfl
  | some x =>
    refine if_pos (out.resolve_right fun out => ?_)
    match d, out with
    | _ + 2, _ => cases hd

/-- Settles O25: the checks of LOCK PREFERENCES in order. -/
theorem lockPreferences : Obligations.LockPreferences := by
  intro s w d h
  refine ⟨fun set => ?_, fun free out => ?_, ?_, ?_⟩
  · exact State.next_station h (lockRequest_protected (by simpa using set) w d)
  · exact State.next_station h (lockRequest_range (by simpa using free) out)
  · rintro free low rfl
    have taken := lockRequest_taken (s := s.opened .station) (by simpa using free) low (d := 0) (x := .lower) rfl
    rw [State.opened_prefs] at taken
    exact State.next_station h taken
  · rintro free low rfl
    have taken := lockRequest_taken (s := s.opened .station) (by simpa using free) low (d := 1) (x := .upper) rfl
    rw [State.opened_prefs] at taken
    exact State.next_station h taken

/-! ### Supply lines (R156) -/

theorem SupplyLine.change_same {x : SupplyLine} {v : Bool} (h : v = x.raw) : x.change v = x := if_pos h

theorem SupplyLine.change_eq {x : SupplyLine} {v : Bool} (h : v ≠ x.raw) :
    x.change v = { x with raw := v, timer := if v = x.qualified then none else some 0 } := if_neg h

theorem State.setLine_same (s : State) (l : Line) : s.setLine l (s.supply.line l) = s := by cases l <;> rfl

/-- Settles O28: `SupplyLine.change` by the level's comparison with the raw and the qualified level. -/
theorem supplyLineChange : Obligations.SupplyLineChange := by
  intro s l v x
  have live (h : s.resetAsserted = false) :
      exec (.supplyLineChange l v) s = .next (s.setLine l (x.change v)).followLines :=
    congrArg Host.Outcome.next (if_neg (by simp [h]))
  refine ⟨fun h => congrArg Host.Outcome.next (if_pos h), fun h same => ?_, fun h off away => ?_, fun h off back => ?_⟩
  · rw [live h, SupplyLine.change_same same, State.setLine_same]
  · rw [live h, SupplyLine.change_eq off, if_neg away]
  · rw [live h, SupplyLine.change_eq off, if_pos back]

/-! ### Soft reset (R175) -/

theorem resetRequest_busy {s : State} (h : s.call.state ≠ .idle ∧ s.call.state ≠ .callback) :
    s.resetRequest = (s, bare .busy) := if_neg (by simpa using h)

/-- Power-on values or values of `s`: what the soft reset leaves, the notices apart. -/
theorem softReset_fields (s : State) :
    s.softReset.table = ReachTable.initial ∧ s.softReset.radios = ⟨RadioContext.initial, RadioContext.initial⟩
      ∧ s.softReset.call = CallRecord.initial ∧ s.softReset.survey = s.survey.softReset s.profile
      ∧ s.softReset.linkCheck = ⟨none, none⟩ ∧ s.softReset.prefs = s.prefs ∧ s.softReset.profile = s.profile
      ∧ s.softReset.journal = s.journal ∧ s.softReset.supply = s.supply ∧ s.softReset.pending = s.pending := by
  unfold State.softReset State.postSoftReset
  split <;> exact ⟨rfl, rfl, rfl, rfl, rfl, rfl, rfl, rfl, rfl, rfl⟩

/-- A soft reset leaves of the notices JOURNAL, where its condition holds, and RADIO, where a radio was not OFF (R71,
R154, R172). -/
theorem softReset_notices (s : State) (p : Port) (k : NoticeKind) :
    (s.softReset.port p).pending.has k = true ↔ p = .station
      ∧ ((k = .journal ∧ s.journal.mark ≤ s.journal.records.length) ∨ (k = .radio ∧ ∃ r, (s.radio r).state ≠ .off)) := by
  have either : (∃ r, (s.radio r).state ≠ .off) ↔ (s.radio .A).state ≠ .off ∨ (s.radio .B).state ≠ .off :=
    ⟨fun ⟨r, h⟩ => by cases r; exacts [.inl h, .inr h], fun h => h.elim (⟨_, ·⟩) (⟨_, ·⟩)⟩
  rw [either]
  unfold State.softReset State.postSoftReset
  split
  · next on =>
    rcases p with _ | (_ | _) <;> cases k <;>
      simp [State.port, State.post, State.setNotice, State.mapPort, State.testJournal, NoticeSet.put, NoticeSet.has,
        PortState.softReset, NoticeSet.empty, on]
  · next off =>
    rcases p with _ | (_ | _) <;> cases k <;>
      simp [State.port, State.setNotice, State.mapPort, State.testJournal, NoticeSet.put, NoticeSet.has,
        PortState.softReset, NoticeSet.empty, off]

theorem softReset_port (s : State) (p : Port) :
    { s.softReset.port p with pending := (s.port p).pending } = s.port p := by
  unfold State.softReset State.postSoftReset
  split <;> rcases p with _ | (_ | _) <;> rfl

/-- Settles O24: BUSY, or the soft reset by its fields and its notices. -/
theorem resetPart : Obligations.ResetPart := by
  intro s h
  refine ⟨fun busy => State.next_station h (resetRequest_busy (by simpa using busy)), fun may => ?_⟩
  have taken : (s.opened .station).resetRequest = ((s.opened .station).softReset, only .ok) := if_pos (by simpa using may)
  obtain ⟨table, radios, call, survey, link, prefs, profile, journal, supply, pending⟩ := softReset_fields (s.opened .station)
  refine ⟨_, State.next_station h taken, fun i => ?_, ?_, fun r => ?_, fun r => ?_, call, ?_, fun r => ?_, ?_, ?_, ?_, ?_,
    ?_, fun r => ?_, fun p => ?_, fun p k => ?_⟩
  · show slotAt _ i = none
    rw [table]
    exact slotAt_initial i
  · rw [table]; rfl
  · rw [table]; cases r <;> rfl
  · rw [reset_radio]
    show PerRadio.get _ r = _
    rw [radios]
    cases r <;> rfl
  · rw [survey]
    simp [Scheduler.softReset]
  · rw [link]; cases r <;> rfl
  · simp [prefs]
  · simp [profile]
  · simp [journal]
  · simp [supply]
  · simp [pending]
  · have := congrArg PortState.response (softReset_port (s.opened .station) (.radio r))
    rw [State.port_opened, if_neg nofun] at this
    exact this
  · have := congrArg PortState.enabled (softReset_port (s.opened .station) p)
    refine Eq.trans this ?_
    rw [State.port_opened]
    split <;> rfl
  · rw [softReset_notices]
    simp

end Sys2Proof.Machine
end

section
/-! PROOFS. The order of the ranked list and READ RANKED; the notices of a port; READ CALL and READ STATUS; the journal's
last records; the score. -/

namespace Sys2Proof.Machine

/-! ### The ranked list (R19) -/

theorem ranksBefore_iff (x y : Nat × Entry) :
    ranksBefore x y = true ↔ y.2.score < x.2.score
      ∨ (y.2.score = x.2.score ∧ (y.2.tier < x.2.tier ∨ (y.2.tier = x.2.tier ∧ x.1 < y.1))) := by
  simp only [ranksBefore, Bool.or_eq_true, Bool.and_eq_true, decide_eq_true_eq, beq_iff_eq, eq_comm (a := x.2.score),
    eq_comm (a := x.2.tier)]

/-- The place of an entry in the order of ranks (R19). -/
def rankKey (x : Nat × Entry) : ℕᵒᵈ ×ₗ ℕᵒᵈ ×ₗ ℕ := toLex (.toDual x.2.score, toLex (.toDual x.2.tier, x.1))

theorem ranksBefore_key (x y : Nat × Entry) : ranksBefore x y = true ↔ rankKey x < rankKey y := by
  simp only [ranksBefore_iff, rankKey, Prod.Lex.toLex_lt_toLex, OrderDual.toDual_lt_toDual, OrderDual.toDual_inj,
    eq_comm (a := x.2.score), eq_comm (a := x.2.tier)]

theorem ranksBefore_trans {x y z : Nat × Entry} (h : ranksBefore x y = true) (k : ranksBefore y z = true) :
    ranksBefore x z = true :=
  (ranksBefore_key x z).2 (((ranksBefore_key x y).1 h).trans ((ranksBefore_key y z).1 k))

/-- Of two slots one stands before the other. -/
theorem ranksBefore_of_not {x y : Nat × Entry} (ne : x.1 ≠ y.1) (h : ¬ ranksBefore x y = true) :
    ranksBefore y x = true :=
  (ranksBefore_key y x).2 (lt_of_le_of_ne (not_lt.1 fun lt => h ((ranksBefore_key x y).2 lt)) fun same =>
    ne (congrArg (fun k : ℕᵒᵈ ×ₗ ℕᵒᵈ ×ₗ ℕ => (ofLex (ofLex k).2).2) same).symm)

theorem insertRanked_sorted {x : Nat × Entry} {l : List (Nat × Entry)} (h : l.Pairwise (ranksBefore · ·))
    (new : ∀ y ∈ l, x.1 ≠ y.1) : (insertRanked x l).Pairwise (ranksBefore · ·) := by
  induction l with
  | nil => exact List.pairwise_singleton _ _
  | cons y rest ih =>
    obtain ⟨hy, hrest⟩ := List.pairwise_cons.1 h
    unfold insertRanked
    split
    · next before =>
      refine List.pairwise_cons.2 ⟨fun z hz => ?_, h⟩
      rcases List.mem_cons.1 hz with rfl | hz
      · exact before
      · exact ranksBefore_trans before (hy z hz)
    · next after =>
      refine List.pairwise_cons.2 ⟨fun z hz => ?_, ih hrest fun z hz => new z (List.mem_cons_of_mem _ hz)⟩
      rcases mem_insertRanked.1 hz with rfl | hz
      · exact ranksBefore_of_not (new y List.mem_cons_self) after
      · exact hy z hz

theorem rankedList_sorted (t : Slots) : (rankedList t).Pairwise (ranksBefore · ·) := by
  have distinct : (((occupiedSlots t).filter (·.2.isRanked)).map (·.1)).Nodup :=
    (occupiedSlots_nodup t).sublist (List.filter_sublist.map _)
  unfold rankedList
  generalize (occupiedSlots t).filter (·.2.isRanked) = l at distinct
  induction l with
  | nil => exact List.Pairwise.nil
  | cons x rest ih =>
    rw [List.map_cons, List.nodup_cons] at distinct
    refine insertRanked_sorted (ih distinct.2) fun y hy same => distinct.1 ?_
    rw [same]
    exact List.mem_map_of_mem ((foldr_insertRanked_perm rest).mem_iff.1 hy)

theorem Entry.isRanked_iff (e : Entry) : e.isRanked = true ↔ ∃ h, e.state = .ranked h := by
  unfold Entry.isRanked
  cases e.state <;> simp

theorem State.mem_ranked (s : State) (i : Nat) (e : Entry) :
    (i, e) ∈ s.ranked ↔ s.entry i = some e ∧ ∃ h, e.state = .ranked h := by
  unfold State.ranked rankedList
  rw [(foldr_insertRanked_perm _).mem_iff, List.mem_filter, mem_occupiedSlots, Entry.isRanked_iff]
  rfl

/-- Settles O17: membership, no repetition, the order of any two positions, and the rank as the position. -/
theorem rankedListOrder : Obligations.RankedListOrder := by
  refine fun s => ⟨s.mem_ranked, rankedList_nodup _, fun n m x y hn hm lt => ?_, fun i n => ?_⟩
  · obtain ⟨ln, rfl⟩ := List.getElem?_eq_some_iff.1 hn
    obtain ⟨lm, rfl⟩ := List.getElem?_eq_some_iff.1 hm
    exact (ranksBefore_iff _ _).1 (List.pairwise_iff_getElem.1 (rankedList_sorted s.table.slots) n m ln lm lt)
  · rw [s.rankOf_eq_some_iff]
    constructor
    · intro h
      obtain ⟨⟨j, e⟩, he, rfl⟩ := Option.map_eq_some_iff.1 h
      exact ⟨e, he⟩
    · rintro ⟨e, he⟩
      rw [he]
      rfl

/-! ### READ RANKED (R167) -/

theorem takeTurns_nil {α : Type} {n : Nat} {ys : List α} (h : ys.length ≤ n) : takeTurns n [] ys = ys := by
  cases n with
  | zero => rw [List.eq_nil_of_length_eq_zero (Nat.le_zero.1 h)]; rfl
  | succ n => rfl

/-- Each of the two lists is found again among the turns, in its order. -/
theorem filter_takeTurns {α : Type} {p : α → Bool} (n : Nat) (xs ys : List α) (room : xs.length + ys.length ≤ n)
    (hx : ∀ x ∈ xs, p x = true) (hy : ∀ y ∈ ys, p y = false) :
    (takeTurns n xs ys).filter p = xs ∧ (takeTurns n xs ys).filter (fun x => !p x) = ys := by
  induction n generalizing xs ys p with
  | zero =>
    obtain rfl := List.eq_nil_of_length_eq_zero (by omega : xs.length = 0)
    obtain rfl := List.eq_nil_of_length_eq_zero (by omega : ys.length = 0)
    exact ⟨rfl, rfl⟩
  | succ n ih =>
    cases xs with
    | nil =>
      rw [takeTurns_nil (by simpa using room)]
      exact ⟨List.filter_eq_nil_iff.2 fun y h => by simp [hy y h], List.filter_eq_self.2 fun y h => by simp [hy y h]⟩
    | cons x xs =>
      have head : p x = true := hx x List.mem_cons_self
      obtain ⟨turns, others⟩ := ih (p := fun x => !p x) ys xs (by simp at room; omega) (fun y h => by simp [hy y h])
        fun x h => by simp [hx x (List.mem_cons_of_mem _ h)]
      simp only [Bool.not_not] at others
      unfold takeTurns
      exact ⟨by rw [List.filter_cons_of_pos head, others], by rw [List.filter_cons_of_neg (by simp [head]), turns]⟩

/-- Two items of one list stand together among the turns only when the other list is used up. -/
theorem takeTurns_together {α : Type} {p : α → Bool} (n : Nat) (xs ys : List α) (room : xs.length + ys.length ≤ n)
    (hx : ∀ x ∈ xs, p x = true) (hy : ∀ y ∈ ys, p y = false) (before after : List α) (x y : α)
    (h : takeTurns n xs ys = before ++ x :: y :: after) (same : p x = p y) : ∀ z ∈ after, p z = p y := by
  induction n generalizing xs ys p before with
  | zero => simp [takeTurns] at h
  | succ n ih =>
    cases xs with
    | nil =>
      rw [takeTurns_nil (by simpa using room)] at h
      intro z hz
      rw [hy z (by simp [h, hz]), hy y (by simp [h])]
    | cons a xs =>
      have room : ys.length + xs.length ≤ n := by simp at room; omega
      have ha : p a = true := hx a List.mem_cons_self
      have hx : ∀ x ∈ xs, p x = true := fun x h => hx x (List.mem_cons_of_mem _ h)
      unfold takeTurns at h
      cases before with
      | cons b before =>
        have tail := (List.cons.inj h).2
        have := ih (p := fun x => !p x) ys xs room (fun y h => by simp [hy y h]) (fun x h => by simp [hx x h]) before tail
          (by simp [same])
        exact fun z hz => by simpa using this z hz
      | nil =>
        obtain ⟨rfl, tail⟩ := List.cons.inj h
        have hb : p y = true := same ▸ ha
        cases ys with
        | nil =>
          rw [takeTurns_nil (by simpa using room)] at tail
          intro z hz
          rw [hx z (by simp [tail, hz]), hb]
        | cons b ys =>
          cases n with
          | zero => simp at room
          | succ n =>
            unfold takeTurns at tail
            obtain ⟨rfl, _⟩ := List.cons.inj tail
            rw [hy b List.mem_cons_self] at hb
            cases hb

/-- The ALTERNATE order holds each radio's entries in their order (R167). -/
theorem filter_alternateFrom (l : List (Nat × Entry)) (r : Radio) :
    ((alternateFrom l).filter fun x => x.2.radio == r) = l.filter fun x => x.2.radio == r := by
  cases l with
  | nil => rfl
  | cons x rest =>
    obtain ⟨first, second⟩ := filter_takeTurns (p := fun y : Nat × Entry => y.2.radio == x.2.radio) (x :: rest).length
      ((x :: rest).filter fun y => y.2.radio == x.2.radio) ((x :: rest).filter fun y => y.2.radio != x.2.radio)
      (by rw [← List.length_append]; exact (List.filter_append_perm _ (x :: rest)).length_eq.le)
      (fun y hy => (List.mem_filter.1 hy).2) (fun y hy => by simpa using (List.mem_filter.1 hy).2)
    unfold alternateFrom
    by_cases same : r = x.2.radio
    · subst same
      exact first
    · have other : (fun y : Nat × Entry => y.2.radio == r) = fun y => !(y.2.radio == x.2.radio) := by
        funext y
        generalize x.2.radio = q at same
        cases y.2.radio <;> cases r <;> cases q <;> first | rfl | exact absurd rfl same
      rw [other]
      exact second

theorem head_alternateFrom (l : List (Nat × Entry)) : (alternateFrom l).head? = l.head? := by
  cases l with
  | nil => rfl
  | cons x rest =>
    show (takeTurns _ ((x :: rest).filter fun y => y.2.radio == x.2.radio) _).head? = some x
    rw [List.filter_cons_of_pos (by simp)]
    rfl

theorem alternateFrom_together (l before after : List (Nat × Entry)) (x y : Nat × Entry)
    (h : alternateFrom l = before ++ x :: y :: after) (same : x.2.radio = y.2.radio) :
    ∀ z ∈ after, z.2.radio = y.2.radio := by
  cases l with
  | nil => simp [alternateFrom] at h
  | cons a rest =>
    intro z hz
    have key := takeTurns_together (p := fun y : Nat × Entry => y.2.radio == a.2.radio) _ _ _
      (by rw [← List.length_append]; exact (List.filter_append_perm _ (a :: rest)).length_eq.le)
      (fun y hy => (List.mem_filter.1 hy).2) (fun y hy => by simpa using (List.mem_filter.1 hy).2) before after x y h
      (by simp [same]) z hz
    generalize a.2.radio = q at key
    revert key
    cases z.2.radio <;> cases y.2.radio <;> cases q <;> decide

theorem rankedInRange_false {start count : Nat} (h : 47 < start ∨ count = 0 ∨ 8 < count) :
    rankedInRange start count = false := by
  simp only [rankedInRange, Bool.and_eq_false_iff, decide_eq_false_iff_not]
  omega

theorem rankedInRange_true {start count : Nat} (h : start ≤ 47) (k : 1 ≤ count) (l : count ≤ 8) :
    rankedInRange start count = true := by
  simp [rankedInRange, h, k, l]

theorem readOrderOf_eq_none {n : Nat} (h : 1 < n) : readOrderOf n = none := by
  match n, h with
  | _ + 2, _ => rfl

theorem readRankedStation_range (s : State) {start count order : Nat}
    (h : 47 < start ∨ count = 0 ∨ 8 < count ∨ 1 < order) : s.readRankedStation start count order = bare .range := by
  unfold State.readRankedStation
  split
  · next o ho =>
    rw [rankedInRange_false]
    · rfl
    · rcases h with h | h | h | h
      · exact .inl h
      · exact .inr (.inl h)
      · exact .inr (.inr h)
      · rw [readOrderOf_eq_none h] at ho
        cases ho
  · rfl

theorem readRankedStation_eq (s : State) {start count order : Nat} {o : ReadOrder} (ho : readOrderOf order = some o)
    (h : rankedInRange start count = true) : s.readRankedStation start count order = readList s.ranked start count o := by
  unfold State.readRankedStation
  rw [ho]
  exact if_pos h

/-- A readout as every port may ask for it. -/
theorem request_readout {s h : State} {p : Port} (hands : s.Hands p h) (f : State → Response) (g : Radio → State → Response) :
    s.request p (readout f) (announced fun r => readout (g r))
      = h.answered p (match p with
          | .station => f h
          | .radio r => g r h) := by
  cases p with
  | station =>
    obtain ⟨listens, rfl⟩ := hands
    exact State.request_station listens _ _
  | radio r =>
    obtain ⟨speaks, rfl⟩ := hands
    exact State.request_speaks speaks _ _

/-- The items that READ RANKED lists are the ones from the start rank on, up to the count. -/
theorem readList_items (l : List (Nat × Entry)) (start count : Nat) :
    (((l.drop start).take count).map summaryOf).length = min count (l.length - start)
      ∧ ∀ n x, (((l.drop start).take count).map summaryOf)[n]? = some x → ∃ i e, l[start + n]? = some (i, e)
        ∧ x = ⟨i, e.radio, e.network, e.generation, e.cell, e.state, e.tier, e.score⟩ := by
  refine ⟨by simp, fun n x h => ?_⟩
  rw [List.getElem?_map] at h
  obtain ⟨⟨i, e⟩, he, rfl⟩ := Option.map_eq_some_iff.1 h
  obtain ⟨hlt, he⟩ := List.getElem?_eq_some_iff.1 he
  refine ⟨i, e, ?_, rfl⟩
  rw [← he, List.getElem_take, List.getElem_drop, List.getElem?_eq_getElem]

/-- Settles O18: the RANK order by `readList_items`, the ALTERNATE order by the lemmas on `alternateFrom`. -/
theorem readRanked : Obligations.ReadRanked := by
  refine ⟨fun s h p start count order hands => ⟨fun out => ?range, fun low one eight rank => ?rank⟩,
    fun s h start count hands low one eight => ?alternate⟩
  case range =>
    refine congrArg Host.Outcome.next ((request_readout hands _ _).trans (congrArg _ ?_))
    cases p with
    | station =>
      refine readRankedStation_range h ?_
      simpa using out
    | radio r =>
      show h.readRankedRadio r start count = _
      unfold State.readRankedRadio
      rw [rankedInRange_false (by simpa using out)]
      rfl
  case rank =>
    have inRange := rankedInRange_true low one eight
    cases p with
    | station =>
      obtain rfl := rank rfl
      refine ⟨h.ranked, rfl, _, (readList_items h.ranked start count).1, (readList_items h.ranked start count).2, ?_⟩
      refine congrArg Host.Outcome.next ((request_readout hands _ _).trans (congrArg _ ?_))
      exact readRankedStation_eq h (order := 0) (o := .rank) rfl inRange
    | radio r =>
      refine ⟨_, rfl, _, (readList_items _ start count).1, (readList_items _ start count).2, ?_⟩
      refine congrArg Host.Outcome.next ((request_readout hands _ _).trans (congrArg _ ?_))
      exact if_pos inRange
  case alternate =>
    refine ⟨alternateFrom (h.ranked.drop start), filter_alternateFrom _, ?_, alternateFrom_together _, ?_⟩
    · rw [head_alternateFrom, List.head?_drop]
    · refine congrArg Host.Outcome.next ((request_readout hands _ _).trans (congrArg _ ?_))
      exact readRankedStation_eq h (order := 1) (o := .alternate) rfl (rankedInRange_true low one eight)

/-! ### Notices (R172) -/

theorem takeNotice_none {h : State} {p : Port}
    (none : ∀ k, ((h.port p).pending.has k && (h.port p).enabled.has k) = false) : h.takeNotice p = (h, bare .noneCode) := by
  have next : (h.port p).nextNotice = Option.none :=
    List.find?_eq_none.2 fun k _ => by simp [none k]
  unfold State.takeNotice
  rw [next]
  rfl

/-- The pending set once a kind has been returned: an event kind has left it (R172). -/
def NoticeSet.returned (n : NoticeSet) (k : NoticeKind) : NoticeSet := if k.isCondition then n else n.put k false

theorem NoticeSet.has_returned (n : NoticeSet) (k j : NoticeKind) :
    (n.returned k).has j = (n.has j && (j != k || k == .journal || k == .order)) := by
  have condition : (k == .journal || k == .order) = k.isCondition := by cases k <;> rfl
  unfold NoticeSet.returned
  rw [Bool.or_assoc, condition]
  cases k.isCondition with
  | true => rw [if_pos rfl, Bool.or_true, Bool.and_true]
  | false =>
    rw [if_neg Bool.false_ne_true, NoticeSet.has_put, Bool.or_false]
    by_cases same : j = k
    · rw [if_pos same, same, bne_self_eq_false, Bool.and_false]
    · rw [if_neg same, bne_iff_ne.2 same, Bool.and_true]

theorem State.mapPort_same (s : State) (p : Port) {f : PortState → PortState} (h : f (s.port p) = s.port p) :
    s.mapPort p f = s := by
  rw [s.mapPort_congr p (g := id) h]
  exact s.mapPort_id p

theorem takeNotice_some {h : State} {p : Port} {k : NoticeKind} (next : (h.port p).nextNotice = some k) :
    h.takeNotice p = (h.mapPort p fun x => { x with pending := (h.port p).pending.returned k },
      ⟨.ok, .notice k ((h.port p).pending.returned k)⟩) := by
  unfold State.takeNotice NoticeSet.returned
  rw [next]
  dsimp only
  split
  · rw [State.mapPort_same _ _ rfl]
  · have same : h.setNotice p k false = h.mapPort p fun x => { x with pending := (h.port p).pending.put k false } :=
      h.mapPort_congr p rfl
    rw [same, State.port_mapPort_self]

theorem nextNotice_eq {x : PortState} {before after : List NoticeKind} {k : NoticeKind}
    (order : noticeOrder = before ++ k :: after) (higher : ∀ j ∈ before, (x.pending.has j && x.enabled.has j) = false)
    (pending : x.pending.has k = true) (enabled : x.enabled.has k = true) : x.nextNotice = some k := by
  unfold PortState.nextNotice
  rw [order, List.find?_append, List.find?_eq_none.2 fun j hj => by simp [higher j hj]]
  simp [pending, enabled]

theorem testBit_iff (n k : Nat) : n.testBit k = true ↔ n / 2 ^ k % 2 = 1 := by
  rw [Nat.testBit_eq_decide_div_mod_eq, decide_eq_true_iff]

/-- Which set bytes name kinds of the station port, and of a radio port (R164, R172). -/
theorem noticeSetOf_within_station {n : Nat} (byte : n < 256) : (noticeSetOf n).within (portKinds .station) = true ↔ n < 128 := by
  have order : (noticeSetOf n).within (portKinds .station) = !n.testBit 7 := by
    cases h : n.testBit 7 <;> simp [NoticeSet.within, noticeOrder, portKinds, NoticeSet.station, NoticeSet.has, noticeSetOf, h]
  rw [order, Bool.not_eq_true', Bool.eq_false_iff, Ne, testBit_iff]
  omega

theorem noticeSetOf_within_radio {n : Nat} (byte : n < 256) :
    (noticeSetOf n).within NoticeSet.radioPort = true ↔ n = 0 ∨ n = 128 := by
  constructor
  · simp only [NoticeSet.within, noticeOrder, NoticeSet.radioPort, NoticeSet.has, noticeSetOf, List.all_cons, List.all_nil,
      Bool.or_false, Bool.or_true, Bool.and_true, Bool.and_eq_true, Bool.not_eq_true']
    rintro ⟨b0, b1, b2, b3, b4, b5, b6⟩
    have low : n % 2 ^ 7 = 0 := Nat.zero_of_testBit_eq_false fun i => by
      rw [Nat.testBit_mod_two_pow]
      match i with
      | 0 => exact b0
      | 1 => exact b1
      | 2 => exact b2
      | 3 => exact b3
      | 4 => exact b4
      | 5 => exact b5
      | 6 => exact b6
      | k + 7 => simp
    omega
  · rintro (rfl | rfl) <;> rfl

theorem noticeSetOf_within {p : Port} {n : Nat} (h : n < 256) :
    (noticeSetOf n).within (portKinds p) = true ↔ (match p with
      | .station => n < 128
      | .radio _ => n = 0 ∨ n = 128) := by
  cases p with
  | station => exact noticeSetOf_within_station h
  | radio r => exact noticeSetOf_within_radio h

theorem noticeSetOf_has (n : Nat) (k : NoticeKind) : (noticeSetOf n).has k = n.testBit k.code := by cases k <;> rfl

/-- Settles O16: READ NOTICE by what `nextNotice` is, SET NOTICE ENABLES by which set bytes name kinds of the port. -/
theorem notices : Obligations.Notices := by
  refine ⟨fun s h p hands => ⟨fun none => ?_, fun before after k order higher pending enabled => ?_⟩,
    fun s h p kinds hands byte => ⟨fun fits => ⟨noticeSetOf kinds, noticeSetOf_has kinds, ?_⟩, fun out => ?_⟩⟩
  · exact State.next_hands hands (takeNotice_none none)
  · exact ⟨_, NoticeSet.has_returned _ k,
      State.next_hands hands (takeNotice_some (nextNotice_eq order higher pending enabled))⟩
  · exact State.next_hands hands (f := (·.enableNotices p kinds)) (if_pos ((noticeSetOf_within byte).2 fits))
  · exact State.next_hands hands (f := (·.enableNotices p kinds)) (if_neg fun k => out ((noticeSetOf_within byte).1 k))

/-! ### READ CALL and READ STATUS -/

theorem effMode_eq (s : State) :
    s.effMode = if s.supply.condition = .critical ∧ s.survey.mode ≠ .off then .paused else s.survey.mode := by
  unfold State.effMode effectiveMode
  cases s.supply.condition <;> cases s.survey.mode <;> rfl

theorem effArrangement_eq (s : State) :
    s.effArrangement = if s.supply.condition = .normal then s.profile.arrangement else .alternate := by
  unfold State.effArrangement effectiveArrangement
  cases s.supply.condition <;> rfl

theorem callRunning_eq (s : State) :
    s.callRunning = if s.call.state = .idle ∨ s.call.state = .callback then none else s.call.startTime.map s.since := by
  unfold State.callRunning
  cases s.call.state <;> rfl

theorem surveyView_pause (s : State) (r : Radio) :
    (s.surveyOf r = .due → (s.surveyView r).pause = none) ∧ (∀ u, s.surveyOf r = .ordered u → (s.surveyView r).pause = none)
      ∧ (∀ u w t, s.surveyOf r = .running u w t → (s.surveyView r).pause = none)
      ∧ (∀ q, s.surveyOf r = .waiting (some q) → (s.surveyView r).pause = some q)
      ∧ (s.surveyOf r = .waiting none → (s.surveyView r).pause = s.survey.shared) := by
  unfold State.surveyView
  dsimp only
  refine ⟨fun h => ?_, fun u h => ?_, fun u w t h => ?_, fun q h => ?_, fun h => ?_⟩ <;> rw [h] <;> rfl

theorem surveyView_running {s : State} {r : Radio} {u : Bool} {w t : Nat} (h : s.surveyOf r = .running u w t) :
    (s.surveyView r).urgent = some u ∧ (s.surveyView r).window = some (w + 2000 - t) := by
  unfold State.surveyView
  dsimp only
  rw [h]
  exact ⟨rfl, rfl⟩

theorem surveyView_ordered {s : State} {r : Radio} {u : Bool} (h : s.surveyOf r = .ordered u) :
    (s.surveyView r).urgent = some u ∧ (s.surveyView r).window = none := by
  unfold State.surveyView
  dsimp only
  rw [h]
  exact ⟨rfl, rfl⟩

theorem surveyView_due {s : State} {r : Radio} (h : s.surveyOf r = .due) :
    (s.surveyView r).urgent = none ∧ (s.surveyView r).window = none := by
  unfold State.surveyView
  dsimp only
  rw [h]
  exact ⟨rfl, rfl⟩

/-- Settles O20: each readout field by field. -/
theorem readCallAndStatus : Obligations.ReadCallAndStatus := by
  refine ⟨⟨fun s h => ?call, fun s r h free => ?denied⟩, fun s h => ?status⟩
  case call =>
    refine ⟨_, State.next_station h rfl, ?_⟩
    refine ⟨rfl, rfl, ?_, rfl, ?_, rfl, rfl, rfl, rfl, rfl, rfl, ?_, rfl, ?_, ?_, rfl, rfl⟩
    · have since : (s.opened .station).since = s.since := rfl
      rw [callRunning_eq, State.opened_call, since]
    · rfl
    · rfl
    · intro t ht
      simp [State.staggerLeft, ht]
    · intro ht
      unfold State.staggerLeft
      rw [State.opened_call]
      split
      · next t e => exact absurd e (ht t)
      · rfl
      · rfl
  case denied => exact congrArg Host.Outcome.next (State.stationRequest_radio h free _)
  case status =>
    refine ⟨_, State.next_station h rfl, ?_⟩
    have surveyOf : ∀ r, (s.opened .station).surveyOf r = s.surveyOf r := s.opened_surveyOf .station
    refine ⟨rfl, rfl, rfl, rfl, effMode_eq _, rfl, effArrangement_eq _, rfl, rfl, rfl, rfl, rfl, rfl, fun r => ?_,
      fun r => by cases r <;> rfl⟩
    have view : PerRadio.get ⟨(s.opened .station).surveyView .A, (s.opened .station).surveyView .B⟩ r
        = s.surveyView r := by cases r <;> rfl
    have pause := surveyView_pause s r
    dsimp only
    rw [view]
    exact ⟨rfl, rfl, fun u h => ⟨(surveyView_ordered h).1, (surveyView_ordered h).2, pause.2.1 u h⟩,
      fun u w t h => ⟨(surveyView_running h).1, (surveyView_running h).2, pause.2.2.1 u w t h⟩,
      fun h => ⟨(surveyView_due h).1, (surveyView_due h).2, pause.1 h⟩, pause.2.2.2.1, pause.2.2.2.2⟩

/-! ### The last records (R147, R149, R150) -/

/-- What a journal keeps of all records written: the last 32, the head with the number lost before it (R147, R150). -/
def lastKept (l : List JournalRecord) : List JournalRecord :=
  (l.drop (l.length - 32)).modifyHead fun y =>
    { y with gap := if l.length - 32 = 0 then y.gap else min 255 ((l.head?.map (·.gap)).getD 0 + (l.length - 32)) }

theorem lastKept_short {l : List JournalRecord} (h : l.length ≤ 32) : lastKept l = l := by
  unfold lastKept
  rw [Nat.sub_eq_zero_of_le h]
  cases l <;> rfl

/-- Of more than 32 records written the head kept is the one after the last that was lost. -/
theorem lastKept_long (g : JournalRecord) (l : List JournalRecord) {lost : Nat} (h : (g :: l).length = 32 + (lost + 1)) :
    lastKept (g :: l) = (l.drop lost).modifyHead fun y => { y with gap := min 255 (g.gap + (lost + 1)) } := by
  have : (g :: l).length - 32 = lost + 1 := by omega
  unfold lastKept
  rw [this]
  rfl

theorem journalAppend_full (g y x : JournalRecord) (l : List JournalRecord) (h : 30 ≤ l.length) :
    journalAppend (g :: y :: l) x = { y with gap := satSucc 255 g.gap } :: l ++ [x] := by
  unfold journalAppend
  rw [if_neg (by simp [Config.journalSize]; omega)]

theorem satSucc_min {n g : Nat} : satSucc 255 (min 255 (g + n)) = min 255 (g + (n + 1)) := by
  unfold satSucc
  rw [← Nat.add_assoc]
  rcases Nat.lt_or_ge (g + n) 255 with low | full
  · rw [min_eq_right low.le, if_pos low, min_eq_right low]
  · rw [min_eq_left full, if_neg (by decide), min_eq_left (full.trans (Nat.le_succ _))]

/-- The list once it is full: the head kept counts what was lost, nothing where nothing was. -/
theorem lastKept_full {g : JournalRecord} {l : List JournalRecord} {lost : Nat} (h : (g :: l).length = 32 + lost)
    (low : g.gap ≤ 255) :
    lastKept (g :: l) = ((g :: l).drop lost).modifyHead fun y => { y with gap := min 255 (g.gap + lost) } := by
  cases lost with
  | zero =>
    rw [lastKept_short h.le]
    show _ = { g with gap := min 255 g.gap } :: l
    rw [min_eq_right low]
  | succ lost => exact lastKept_long g l h

/-- A record written goes on with what has been kept (R150). -/
theorem lastKept_append (l : List JournalRecord) (x : JournalRecord) (low : ∀ y, l.head? = some y → y.gap ≤ 255) :
    journalAppend (lastKept l) x = lastKept (l ++ [x]) := by
  have more : (l ++ [x]).length = l.length + 1 := List.length_append
  by_cases short : l.length < 32
  · rw [lastKept_short short.le, lastKept_short (more ▸ short)]
    exact if_pos short
  obtain ⟨lost, full⟩ := Nat.exists_eq_add_of_le (Nat.le_of_not_lt short)
  rw [full] at more
  match l, low, full, more with
  | g :: rest, low, full, more =>
    have size : rest.length = lost + 31 := by
      rw [List.length_cons] at full
      omega
    have kept : (rest.drop lost).length = 31 := by rw [List.length_drop, size, Nat.add_sub_cancel_left]
    obtain ⟨z, tail, next⟩ := List.exists_cons_of_length_pos (by rw [kept]; decide)
    have long : tail.length = 30 := Nat.succ.inj ((congrArg List.length next).symm.trans kept)
    obtain ⟨h, all⟩ : ∃ h, (g :: rest).drop lost = h :: z :: tail :=
      ⟨_, (List.drop_eq_getElem_cons (by rw [full]; omega)).trans (congrArg _ next)⟩
    rw [lastKept_full full (low g rfl), all, List.cons_append, lastKept_long g (rest ++ [x]) more,
      List.drop_append_of_le_length (size ▸ Nat.le_add_right _ _), next, List.cons_append, List.modifyHead_cons,
      List.modifyHead_cons, journalAppend_full _ _ _ _ long.ge, satSucc_min]
    rfl

/-- The records after some writes are what is kept of all of them. -/
theorem foldl_writeRecord (xs : List JournalRecord) (s : State) (all : List JournalRecord)
    (h : s.journal.records = lastKept all) (low : ∀ y, all.head? = some y → y.gap ≤ 255) :
    (xs.foldl State.writeRecord s).journal.records
        = lastKept (all ++ xs.map fun x => { x with time := s.journal.clock.sec, gap := 0 })
      ∧ (xs.foldl State.writeRecord s).journal.mark = s.journal.mark
      ∧ (xs.foldl State.writeRecord s).journal.clock = s.journal.clock := by
  induction xs generalizing s all with
  | nil => exact ⟨by simpa using h, rfl, rfl⟩
  | cons x xs ih =>
    have written : (s.writeRecord x).journal
        = { s.journal with records := lastKept (all ++ [{ x with time := s.journal.clock.sec, gap := 0 }]) } := by
      rw [← lastKept_append all _ low, ← h]
      rfl
    obtain ⟨records, mark, clock⟩ := ih (s.writeRecord x) (all ++ [{ x with time := s.journal.clock.sec, gap := 0 }])
      (by rw [written]) (by
        intro y hy
        cases all with
        | nil => cases hy; exact Nat.zero_le _
        | cons g rest => exact low y hy)
    rw [written] at records mark clock
    refine ⟨?_, mark, clock⟩
    rw [List.foldl_cons, records, List.append_assoc]
    rfl

/-- Settles O22: what `lastKept` is of the records that stand and those written. -/
theorem journalKeepsLast32 : Obligations.JournalKeepsLast32 := by
  intro s xs sound low all lost kept
  have start : s.journal.records = lastKept s.journal.records := (lastKept_short sound.1).symm
  obtain ⟨records, mark, clock⟩ := foldl_writeRecord xs s _ start fun y hy => low y (List.mem_of_mem_head? hy)
  have hk : kept = lastKept all := records
  refine ⟨?_, ?_, fun x hx => ?_, mark, clock⟩
  · rw [hk]
    unfold lastKept
    cases all.drop (all.length - 32) <;> rfl
  · rw [hk, lastKept, List.length_modifyHead, List.length_drop, Nat.sub_sub_eq_min, min_comm]
  · rw [hk] at hx
    unfold lastKept at hx
    cases hd : all.drop (all.length - 32) with
    | nil => rw [hd] at hx; cases hx
    | cons y rest =>
      rw [hd] at hx
      refine ⟨y, rfl, ?_⟩
      exact (Option.some.inj hx).symm

/-! ### The score (R32, R33) -/

theorem scoreOf_cast (b : Biases) (e : Entry) :
    (scoreOf b e : Int) = max 0 (min 1023 ((e.level + 2240) / 4 + qualityTerm e.quality + 16 * e.credit + 32 * e.tier
      + b.forGeneration e.generation - fadingPenalty e.state)) := by
  unfold scoreOf
  dsimp only
  rw [Int.toNat_of_nonneg (le_min (by decide) (le_max_left _ _)), max_min_distrib_left,
    max_eq_right (by decide : (0 : Int) ≤ 1023)]

/-- Settles O44: the terms of `scoreOf`, case by case. -/
theorem scoreFormula : Obligations.ScoreFormula := by
  intro b e _ _
  refine ⟨qualityTerm e.quality, b.forGeneration e.generation, fadingPenalty e.state, scoreOf_cast b e, fun h => ?_,
    fun q h => ?_, fun h => ?_, fun h => ?_, fun h => ?_, fun h => ?_, fun h => ?_, fun h => ?_⟩
  case refine_8 =>
    unfold fadingPenalty
    split
    · next fading => exact absurd fading h
    all_goals rfl
  all_goals rw [h]; rfl

end Sys2Proof.Machine
end

section
/-! PROOFS. The frames of the requests: what is read back from them, and what a damaged one stands for (R164, R165). -/

namespace Sys2Proof.Machine

/-! ### Numbers in bytes (R164) -/

theorem beNat_cons (b : Byte) (bs : List Byte) : beNat (b :: bs) = b.toNat * 256 ^ bs.length + beNat bs := by
  have fold : ∀ (l : List Byte) (n : Nat),
      l.foldl (fun n b => n * 256 + b.toNat) n = n * 256 ^ l.length + beNat l := by
    intro l
    induction l with
    | nil => simp [beNat]
    | cons a l ih =>
      intro n
      unfold beNat
      rw [List.foldl_cons, List.foldl_cons, ih, ih (0 * 256 + a.toNat), List.length_cons]
      ring
  show List.foldl _ (0 * 256 + b.toNat) bs = _
  rw [fold, Nat.zero_mul, Nat.zero_add]

theorem beNat_beBytes {w n : Nat} (h : n < 256 ^ w) : beNat (beBytes w n) = n := by
  have low : ∀ (w n : Nat), beNat (beBytes w n) = n % 256 ^ w := by
    intro w
    induction w with
    | zero => intro n; simp [beBytes, beNat, Nat.mod_one]
    | succ w ih =>
      intro n
      rw [beBytes, beNat_cons, ih, Laws.FrameFits.beBytes_length, BitVec.toNat_ofNat]
      show n / 256 ^ w % 256 * 256 ^ w + _ = _
      rw [Nat.pow_succ, Nat.mod_mul, Nat.add_comm, Nat.mul_comm (256 ^ w)]
  rw [low, Nat.mod_eq_of_lt h]

theorem beInt_beSigned {w : Nat} {x : Int} (low : -(256 ^ w : Nat) ≤ 2 * x) (high : 2 * x < (256 ^ w : Nat)) :
    beInt w (beNat (beSigned w x)) = x := by
  have pos : (0 : Int) < (256 ^ w : Nat) := by exact_mod_cast Nat.pow_pos (by decide : 0 < 256)
  have fits : (x % (256 ^ w : Nat)).toNat < 256 ^ w := by
    have := Int.emod_lt_of_pos x pos
    have := Int.emod_nonneg x pos.ne'
    omega
  unfold beSigned beInt
  rw [beNat_beBytes fits]
  generalize 256 ^ w = m at *
  rcases Int.lt_or_le x 0 with neg | nonneg
  · have : x % (m : Int) = x + m := by
      rw [← Int.add_emod_right]
      exact Int.emod_eq_of_lt (by omega) (by omega)
    split <;> omega
  · have : x % (m : Int) = x := Int.emod_eq_of_lt nonneg (by omega)
    split <;> omega

theorem beBytes_one {n : Nat} (h : n < 256) : (BitVec.ofNat 8 n).toNat = n := by
  rw [BitVec.toNat_ofNat, Nat.mod_eq_of_lt h]

/-! ### Fields one after another -/

theorem writeFields_cons (w n : Nat) (l : List (Nat × Nat)) :
    writeFields ((w, n) :: l) = beBytes w n ++ writeFields l := rfl

/-- Fields that fit their widths are split again into themselves. -/
theorem splitFields_writeFields (l : List (Nat × Nat)) (h : ∀ x ∈ l, x.2 < 256 ^ x.1) :
    splitFields (l.map (·.1)) (writeFields l) = l.map (·.2) := by
  induction l with
  | nil => rfl
  | cons x l ih =>
    have head : (writeFields (x :: l)).take x.1 = beBytes x.1 x.2 := by
      rw [writeFields_cons, List.take_left' (Laws.FrameFits.beBytes_length _ _)]
    have tail : (writeFields (x :: l)).drop x.1 = writeFields l := by
      rw [writeFields_cons, List.drop_left' (Laws.FrameFits.beBytes_length _ _)]
    rw [List.map_cons, splitFields, head, tail, beNat_beBytes (h x List.mem_cons_self),
      ih fun y hy => h y (List.mem_cons_of_mem _ hy), List.map_cons]

theorem exactFields_writeFields (l : List (Nat × Nat)) (h : ∀ x ∈ l, x.2 < 256 ^ x.1) :
    exactFields (l.map (·.1)) (writeFields l) = some (l.map (·.2)) := by
  unfold exactFields
  rw [if_pos (Laws.FrameFits.writeFields_length l), splitFields_writeFields l h]

theorem oneByte_writeFields {f : Nat → Instr} {a : Nat} (ha : a < 256) : oneByte f (writeFields [(1, a)]) = some (f a) := by
  unfold oneByte
  have fields : exactFields [1] (writeFields [(1, a)]) = some [a] := exactFields_writeFields [(1, a)] (by simpa using ha)
  rw [fields]

theorem twoBytes_writeFields {f : Nat → Nat → Instr} {a b : Nat} (ha : a < 256) (hb : b < 256) :
    twoBytes f (writeFields [(1, a), (1, b)]) = some (f a b) := by
  unfold twoBytes
  have fields : exactFields [1, 1] (writeFields [(1, a), (1, b)]) = some [a, b] :=
    exactFields_writeFields [(1, a), (1, b)] (by simp [ha, hb])
  rw [fields]

theorem threeBytes_writeFields {f : Nat → Nat → Nat → Instr} {a b c : Nat} (ha : a < 256) (hb : b < 256) (hc : c < 256) :
    threeBytes f (writeFields [(1, a), (1, b), (1, c)]) = some (f a b c) := by
  unfold threeBytes
  have fields : exactFields [1, 1, 1] (writeFields [(1, a), (1, b), (1, c)]) = some [a, b, c] :=
    exactFields_writeFields [(1, a), (1, b), (1, c)] (by simp [ha, hb, hc])
  rw [fields]

theorem writePreferenceOfBytes_writeFields {p : Port} {i e c t : Nat} (hi : i < 256) (he : e < 256) (hc : c < 2 ^ 24)
    (ht : t < 256) :
    writePreferenceOfBytes p (writeFields [(1, i), (1, e), (3, c), (1, t)]) = some (.writePreference p i e c t) := by
  unfold writePreferenceOfBytes
  have fields : exactFields [1, 1, 3, 1] (writeFields [(1, i), (1, e), (3, c), (1, t)]) = some [i, e, c, t] :=
    exactFields_writeFields [(1, i), (1, e), (3, c), (1, t)] (by simp [hi, he, ht]; omega)
  rw [fields]

/-! ### ANNOUNCE, CELL REPORT and SET PROFILE -/

theorem announceOfBytes_request {p : Port} {generations : List Nat} {identity : Nat}
    (h : announceWellFormed generations identity = true) :
    announceOfBytes p (BitVec.ofNat 8 generations.length :: generations.map (BitVec.ofNat 8) ++ beBytes 4 identity)
      = some (.announce p generations identity) := by
  simp only [announceWellFormed, Bool.and_eq_true, decide_eq_true_eq, List.all_eq_true] at h
  obtain ⟨⟨short, bytes⟩, fits⟩ := h
  have count : (BitVec.ofNat 8 generations.length).toNat = (generations.map (BitVec.ofNat 8)).length := by
    rw [beBytes_one (by omega), List.length_map]
  have list : (generations.map (BitVec.ofNat 8)).map BitVec.toNat = generations := by
    rw [List.map_map]
    exact (List.map_congr_left (g := id) fun g hg => beBytes_one (bytes g hg)).trans (List.map_id _)
  rw [List.cons_append, announceOfBytes, count, List.take_left, List.drop_left, list, beNat_beBytes (by omega),
    if_pos (by rw [List.length_append, Laws.FrameFits.beBytes_length])]

/-- The bytes of a report as fixed-size fields. -/
theorem reportBytes_eq (x : RawReport) :
    reportBytes x = writeFields [(3, x.network), (1, x.generation), (4, x.cell), (2, x.channel),
      (2, (x.level % (256 ^ 2 : Nat)).toNat), (1, x.quality)] := by
  simp [reportBytes, writeFields, beSigned]

theorem reportOfBytes_eq (bs : List Byte) : [(reportOfBytes bs).network, (reportOfBytes bs).generation,
    (reportOfBytes bs).cell, (reportOfBytes bs).channel, beNat ((bs.drop 10).take 2), (reportOfBytes bs).quality]
      = splitFields [3, 1, 4, 2, 2, 1] bs := by
  simp [reportOfBytes, splitFields]

theorem reportOfBytes_reportBytes {x : RawReport} (h : x.wellFormed = true) : reportOfBytes (reportBytes x) = x := by
  simp only [RawReport.wellFormed, Bool.and_eq_true, decide_eq_true_eq] at h
  obtain ⟨⟨⟨⟨⟨network, generation⟩, cell⟩, channel⟩, level⟩, quality⟩ := h
  have back := reportOfBytes_eq (reportBytes x)
  have wrapped : (x.level % (256 ^ 2 : Nat)).toNat < 256 ^ 2 := by omega
  have split := splitFields_writeFields [(3, x.network), (1, x.generation), (4, x.cell), (2, x.channel),
      (2, (x.level % (256 ^ 2 : Nat)).toNat), (1, x.quality)] (by
    simp only [List.forall_mem_cons, List.not_mem_nil, false_imp_iff, implies_true, and_true]
    omega)
  rw [← reportBytes_eq] at split
  have signed := beInt_beSigned (w := 2) (x := x.level) (by omega) (by omega)
  unfold beSigned at signed
  rw [beNat_beBytes wrapped] at signed
  have fields := back.trans split
  simp only [List.map_cons, List.map_nil, List.cons.injEq, and_true] at fields
  obtain ⟨h1, h2, h3, h4, h5, h6⟩ := fields
  have h5 : (reportOfBytes (reportBytes x)).level = x.level := by
    show beInt 2 _ = _
    rw [h5, signed]
  generalize reportOfBytes (reportBytes x) = y at *
  cases x
  cases y
  simp only [RawReport.mk.injEq]
  exact ⟨h1, h2, h3, h4, h5, h6⟩

theorem reportsOfBytes_flatMap (l : List RawReport) (h : ∀ x ∈ l, x.wellFormed = true) :
    reportsOfBytes l.length (l.flatMap reportBytes) = l := by
  induction l with
  | nil => rfl
  | cons x l ih =>
    have size : (reportBytes x).length = 13 := Laws.FrameFits.reportBytes_length x
    rw [List.length_cons, reportsOfBytes, List.flatMap_cons, List.take_left' size, List.drop_left' size,
      reportOfBytes_reportBytes (h x List.mem_cons_self), ih fun y hy => h y (List.mem_cons_of_mem _ hy)]

theorem cellReportOfBytes_request {p : Port} {count : Nat} {reports : List RawReport}
    (h : cellReportWellFormed count reports = true) :
    cellReportOfBytes p (BitVec.ofNat 8 count :: reports.flatMap reportBytes) = some (.cellReport p count reports) := by
  simp only [cellReportWellFormed, Bool.and_eq_true, decide_eq_true_eq, List.all_eq_true, beq_iff_eq] at h
  obtain ⟨⟨byte, number⟩, fits⟩ := h
  unfold cellReportOfBytes
  dsimp only
  rw [beBytes_one byte]
  by_cases range : 1 ≤ count ∧ count ≤ 6
  · rw [if_pos range] at number
    subst number
    rw [if_pos range, if_pos (Laws.FrameFits.flatMap_length reports), reportsOfBytes_flatMap reports fits]
  · rw [if_neg range] at number
    rw [if_neg range, List.eq_nil_of_length_eq_zero number]

/-- A signed byte as the number that its byte carries. -/
def signedByte (x : Int) : Nat := (x % (256 ^ 1 : Nat)).toNat

theorem signedByte_lt (x : Int) : signedByte x < 256 := by unfold signedByte; omega

theorem beInt_signedByte {x : Int} (h : biasWellFormed x = true) : beInt 1 (signedByte x) = x := by
  simp only [biasWellFormed, Bool.and_eq_true, decide_eq_true_eq] at h
  have signed := beInt_beSigned (w := 1) (x := x) (by omega) (by omega)
  unfold beSigned at signed
  rwa [beNat_beBytes (by omega)] at signed

/-- The fields of SET PROFILE with their widths (R168). -/
def profileList (f : ProfileFields) : List (Nat × Nat) :=
  [(1, f.smoothing), (1, f.fade), (2, f.lost), (2, f.relax), (1, signedByte f.bias2), (1, signedByte f.bias3),
    (1, signedByte f.bias4), (1, signedByte f.bias5), (1, f.exponent), (1, f.recovery), (1, f.arrangement),
    (1, f.operate), (2, f.pause), (1, f.dual), (1, f.stagger), (1, f.setup), (1, f.answer), (2, f.backoff),
    (2, f.exclusion), (2, f.window)]

theorem profileBytes_eq (f : ProfileFields) : profileBytes f = writeFields (profileList f) := by
  simp [profileBytes, profileList, writeFields, beSigned, signedByte]

theorem setProfileOfBytes_request {p : Port} {f : ProfileFields} (h : f.wellFormed = true) :
    setProfileOfBytes p (profileBytes f) = some (.setProfile p f) := by
  simp only [ProfileFields.wellFormed, Bool.and_eq_true, decide_eq_true_eq] at h
  obtain ⟨⟨⟨⟨⟨⟨⟨⟨⟨⟨⟨⟨⟨⟨⟨⟨⟨⟨⟨h1, h2⟩, h3⟩, h4⟩, b2⟩, b3⟩, b4⟩, b5⟩, h9⟩, h10⟩, h11⟩, h12⟩, h13⟩, h14⟩, h15⟩, h16⟩, h17⟩,
    h18⟩, h19⟩, h20⟩ := h
  have fits : ∀ x ∈ profileList f, x.2 < 256 ^ x.1 := by
    simp only [profileList, List.forall_mem_cons, List.not_mem_nil, false_imp_iff, implies_true, and_true, Nat.reducePow]
    exact ⟨h1, h2, h3, h4, signedByte_lt _, signedByte_lt _, signedByte_lt _, signedByte_lt _, h9, h10, h11, h12, h13, h14,
      h15, h16, h17, h18, h19, h20⟩
  have fields : exactFields profileWidths (profileBytes f) = some ((profileList f).map (·.2)) := by
    rw [profileBytes_eq]
    exact exactFields_writeFields (profileList f) fits
  unfold setProfileOfBytes
  rw [fields]
  show some (Instr.setProfile p ⟨_, _, _, _, beInt 1 (signedByte f.bias2), beInt 1 (signedByte f.bias3),
    beInt 1 (signedByte f.bias4), beInt 1 (signedByte f.bias5), _, _, _, _, _, _, _, _, _, _, _, _⟩) = _
  rw [beInt_signedByte b2, beInt_signedByte b3, beInt_signedByte b4, beInt_signedByte b5]

/-! ### Requests from their codes and fields -/

/-- What a request with its code and fields on its port spells. -/
theorem spelled_again {i : Instr} {p q : Port} {c : Nat} {bs : List Byte} {x : Nat × List Byte} (on : some q = some p)
    (h : some x = some (c, bs)) (spells : requestOf q (BitVec.ofNat 8 x.1).toNat x.2 = some (some i)) :
    requestOf p (BitVec.ofNat 8 c).toNat bs = some (some i) := by
  obtain rfl := Option.some.inj on
  obtain rfl := Option.some.inj h
  exact spells

/-- The code and the fields of a well-formed request spell it again (R165, steps 4 and 5). -/
theorem requestOf_request {i : Instr} {p : Port} {c : Nat} {bs : List Byte} (fits : i.wellFormed = true)
    (on : i.port = some p) (h : i.request = some (c, bs)) :
    requestOf p (BitVec.ofNat 8 c).toNat bs = some (some i) := by
  cases i
  case setNoticeEnables | readPreference | setSurveyMode | readEntry | readRadio | setJournalMark =>
    exact spelled_again on h (congrArg some (oneByte_writeFields (of_decide_eq_true fits)))
  case moduleStatus | lockPreferences | linkCheck =>
    simp only [Instr.wellFormed, Bool.and_eq_true, decide_eq_true_eq] at fits
    exact spelled_again on h (congrArg some (twoBytes_writeFields fits.1 fits.2))
  case readRanked | progress =>
    simp only [Instr.wellFormed, Bool.and_eq_true, decide_eq_true_eq] at fits
    exact spelled_again on h (congrArg some (threeBytes_writeFields fits.1.1 fits.1.2 fits.2))
  case writePreference =>
    simp only [Instr.wellFormed, Bool.and_eq_true, decide_eq_true_eq] at fits
    exact spelled_again on h (congrArg some (writePreferenceOfBytes_writeFields fits.1.1.1 fits.1.1.2 fits.1.2 fits.2))
  case announce => exact spelled_again on h (congrArg some (announceOfBytes_request fits))
  case cellReport => exact spelled_again on h (congrArg some (cellReportOfBytes_request fits))
  case setProfile => exact spelled_again on h (congrArg some (setProfileOfBytes_request fits))
  all_goals first
    | exact spelled_again on h rfl
    | exact absurd h.symm (Option.some_ne_none _)

theorem frame_fits (i : Instr) : Laws.FrameFits.Statement i := by
  cases i
  case announce => exact Laws.FrameFits.announce _ _ _
  case cellReport => exact Laws.FrameFits.cellReport _ _ _
  case setProfile => exact Laws.FrameFits.setProfile _ _
  all_goals first
    | exact Laws.FrameFits.of_none rfl
    | exact Laws.FrameFits.of_request rfl (by simp [Laws.FrameFits.writeFields_length])

/-- A request's frame begins with its own length (R164). -/
theorem frame_shape {i : Instr} {f : List Byte} (fits : i.wellFormed = true) (h : i.frame = some f) :
    ∃ c bs b, i.request = some (c, bs) ∧ b.toNat = bs.length + 3 ∧ 3 ≤ b.toNat ∧ b.toNat ≤ 96
      ∧ f = (b :: BitVec.ofNat 8 c :: bs) ++ [frameCheck (b :: BitVec.ofNat 8 c :: bs)] := by
  obtain ⟨low, high⟩ := frame_fits i fits f h
  obtain ⟨⟨c, bs⟩, request, rfl⟩ := Option.map_eq_some_iff.1 h
  rw [Laws.FrameFits.frameOf_length] at low high
  have size : (BitVec.ofNat 8 (bs.length + 3)).toNat = bs.length + 3 := beBytes_one (by dsimp only at high; omega)
  exact ⟨c, bs, _, request, size, by rw [size]; exact low, by rw [size]; exact high, rfl⟩

/-! ### Select periods -/

/-- The checks of a period whose first byte is a length (R165, steps 1 to 3). -/
theorem judgePeriod_cons (p : Port) {b : Byte} (low : 3 ≤ b.toNat) (high : b.toNat ≤ 96) (rest : List Byte) :
    judgePeriod p (b :: rest)
      = if (b :: rest).length < b.toNat ∨ ((b :: rest).drop b.toNat).any (· != 0xFF#8) = true then .frameError p
        else judgeFrame p ((b :: rest).take b.toNat) := by
  have length : b ≠ 0xFF#8 := by
    rintro rfl
    exact absurd high (by decide)
  unfold judgePeriod
  dsimp only
  rw [if_neg length, if_neg (by omega)]

theorem judgeFrame_checked (p : Port) (b c : Byte) (bs : List Byte) (check : Byte) :
    judgeFrame p ((b :: c :: bs) ++ [check])
      = if check = frameCheck (b :: c :: bs) then judgeRequest p c bs else .frameError p := by
  have fields : ((b :: c :: bs) ++ [check]).drop 2 = bs ++ [check] := rfl
  unfold judgeFrame
  rw [List.getLast?_concat, List.dropLast_concat, fields, List.dropLast_concat]
  simp only [Option.some.injEq]
  rfl

/-- Settles O9: a frame passes the checks, and its code and fields spell the request. -/
theorem requestsReadBack : Obligations.RequestsReadBack := by
  intro i p f n fits on h
  obtain ⟨c, bs, b, request, size, low, high, rfl⟩ := frame_shape fits h
  have whole : ((b :: BitVec.ofNat 8 c :: bs) ++ [frameCheck (b :: BitVec.ofNat 8 c :: bs)]).length = b.toNat := by
    simp [size]
  have checked := judgePeriod_cons p low high
    ((BitVec.ofNat 8 c :: bs) ++ [frameCheck (b :: BitVec.ofNat 8 c :: bs)] ++ List.replicate n 0xFF#8)
  rw [← List.cons_append, ← List.cons_append, List.drop_left' whole, List.take_left' whole, if_neg, judgeFrame_checked,
    if_pos rfl] at checked
  · refine checked.trans ?_
    unfold judgeRequest
    rw [requestOf_request fits on request]
  · rw [List.length_append, whole]
    simp

/-- Settles O11: the length byte finds a cut frame and a byte after the frame, the check byte a wrong one. -/
theorem damagedFrames : Obligations.DamagedFrames := by
  intro i p f fits on h
  obtain ⟨c, bs, b, request, size, low, high, rfl⟩ := frame_shape fits h
  refine ⟨fun n pos short => ?_, fun l ⟨x, hx, other⟩ => ?_, fun check wrong => ?_⟩
  · obtain ⟨n, rfl⟩ := Nat.exists_eq_succ_of_ne_zero pos.ne'
    rw [List.cons_append, List.take_succ_cons, judgePeriod_cons p low high, if_pos]
    refine .inl ?_
    simp only [List.length_append, List.length_cons, List.length_nil] at short
    simp only [List.length_cons, List.length_take, List.length_append, List.length_nil]
    omega
  · have whole : ((b :: BitVec.ofNat 8 c :: bs) ++ [frameCheck (b :: BitVec.ofNat 8 c :: bs)]).length = b.toNat := by
      simp [size]
    have checked := judgePeriod_cons p low high
      ((BitVec.ofNat 8 c :: bs) ++ [frameCheck (b :: BitVec.ofNat 8 c :: bs)] ++ l)
    rw [← List.cons_append, ← List.cons_append, if_pos] at checked
    · exact checked
    · rw [List.drop_left' whole]
      exact .inr (List.any_eq_true.2 ⟨x, hx, by simpa using other⟩)
  · rw [List.dropLast_concat] at wrong ⊢
    have whole : ((b :: BitVec.ofNat 8 c :: bs) ++ [check]).length = b.toNat := by simp [size]
    rw [List.cons_append, judgePeriod_cons p low high, ← List.cons_append, List.drop_eq_nil_of_le whole.le,
      List.take_of_length_le whole.le, judgeFrame_checked, if_neg wrong, ite_self]

end Sys2Proof.Machine
end

section
/-! PROOFS. What the survey scheduler and the supply monitor do when they are told of a change: `Schedules`, updates of
survey states and SURVEY orders alone, and `Tends`, those with the POWER orders of the snooze test (R77 to R85, R158 to
R161). -/

namespace Sys2Proof.Machine

/-! ### Survey states that run on -/

/-- A RUNNING survey runs on, or has ended where that is allowed; no survey has begun to run. -/
def RunsOn (ends : Prop) (v w : SurveyState) : Prop :=
  (v.isRunning = true → w = v ∨ (ends ∧ w.isRunning = false)) ∧ (v.isRunning = false → w.isRunning = false)

theorem RunsOn.refl (ends : Prop) (v : SurveyState) : RunsOn ends v v := ⟨fun _ => .inl rfl, id⟩

theorem RunsOn.trans {ends : Prop} {u v w : SurveyState} (h : RunsOn ends u v) (k : RunsOn ends v w) : RunsOn ends u w := by
  refine ⟨fun run => ?_, fun still => k.2 (h.2 still)⟩
  rcases h.1 run with rfl | ⟨may, ended⟩
  · exact k.1 run
  · exact .inr ⟨may, k.2 ended⟩

theorem RunsOn.mono {a b : Prop} (ab : a → b) {v w : SurveyState} (h : RunsOn a v w) : RunsOn b v w :=
  ⟨fun run => (h.1 run).imp_right fun k => ⟨ab k.1, k.2⟩, h.2⟩

theorem RunsOn.stop {ends : Prop} {v w : SurveyState} (h : ends ∨ v.isRunning = false) (stopped : w.isRunning = false) :
    RunsOn ends v w := by
  refine ⟨fun run => .inr ⟨h.resolve_right fun k => ?_, stopped⟩, fun _ => stopped⟩
  rw [run] at k
  cases k

theorem RunsOn.wake (ends : Prop) (v : SurveyState) : RunsOn ends v v.wake := by
  cases v
  case waiting => exact .stop (.inr rfl) rfl
  all_goals exact .refl _ _

theorem RunsOn.holdPause (ends : Prop) (b : Bool) (v : SurveyState) : RunsOn ends v (v.holdPause b) := by
  cases v
  case waiting => exact .stop (.inr rfl) rfl
  all_goals exact .refl _ _

theorem RunsOn.withOwn (ends : Prop) (p : Option Pause) (v : SurveyState) : RunsOn ends v (v.withOwn p) := by
  cases v
  case waiting => exact .stop (.inr rfl) rfl
  all_goals exact .refl _ _

theorem SurveyState.isRunning_iff (v : SurveyState) : v.isRunning = true ↔ ∃ u w x, v = .running u w x := by
  cases v <;> simp [SurveyState.isRunning]

theorem SurveyState.isRunning_eq_false (v : SurveyState) : v.isRunning = false ↔ ∀ u w x, v ≠ .running u w x := by
  cases v <;> simp [SurveyState.isRunning]

theorem trimShared_states (c : Scheduler) : c.trimShared.states = c.states := by
  unfold Scheduler.trimShared
  split <;> rfl

/-! ### What the scheduler does -/

/-- `t` comes from `s` by updates of the scheduler and of SURVEY orders, which go to READY radios alone; the surveys of the
radios that `e` names may have ended. -/
inductive Schedules (e : Radio → Prop) : State → State → Prop where
  | refl (s : State) : Schedules e s s
  | trans {s t u : State} : Schedules e s t → Schedules e t u → Schedules e s u
  /-- A SURVEY order is queued. -/
  | order (s : State) (r : Radio) (w : Nat) (u : Bool) (ready : s.radioReady r = true) :
    Schedules e s (s.enqueue r (.survey w u))
  /-- The SURVEY orders of a radio are removed. -/
  | drop (s : State) (r : Radio) : Schedules e s (s.dropOrders r .survey)
  /-- The scheduler is changed. -/
  | survey (s : State) (f : Scheduler → Scheduler)
    (runs : ∀ q, RunsOn (e q) (s.survey.states.get q) ((f s.survey).states.get q)) : Schedules e s (s.mapSurvey f)

namespace Schedules

variable {e : Radio → Prop} {s t u : State}

theorem mono {d : Radio → Prop} (de : ∀ r, d r → e r) (h : Schedules d s t) : Schedules e s t := by
  induction h with
  | refl s => exact .refl s
  | trans _ _ h k => exact h.trans k
  | order s r w u ready => exact .order s r w u ready
  | drop s r => exact .drop s r
  | survey s f runs => exact .survey s f fun q => (runs q).mono (de q)

theorem quiet (h : Schedules e s t) : Quiet s t := by
  induction h with
  | refl s => exact .refl s
  | trans _ _ h k => exact h.trans k
  | order s r w u _ => exact State.enqueue_quiet _ _ _
  | drop s r => exact State.dropOrders_quiet _ _ _
  | survey s f _ => exact .survey s f

theorem ite {c : Prop} [Decidable c] (h : c → Schedules e s t) (k : ¬c → Schedules e s u) :
    Schedules e s (if c then t else u) := by
  split
  · exact h ‹_›
  · exact k ‹_›

theorem ite_self {c : Prop} [Decidable c] (h : c → Schedules e s t) : Schedules e s (if c then t else s) :=
  .ite h fun _ => .refl s

end Schedules

/-! ### What changes with a queue -/

theorem State.setQueue_rest (s : State) (r : Radio) (q : List Order) :
    { s.setQueue r q with radios := s.radios, ports := s.ports } = s := by cases r <;> rfl

theorem State.enqueue_eq (s : State) (r : Radio) (o : Order) :
    s.enqueue r o = if (s.radio r).state = .off ∨ (s.radio r).state = .fault then s
      else s.setQueue r (dropKind o.kind (s.radio r).queue ++ [o]) := by
  unfold State.enqueue
  cases (s.radio r).state <;> rfl

theorem State.enqueue_rest (s : State) (r : Radio) (o : Order) :
    { s.enqueue r o with radios := s.radios, ports := s.ports } = s := by
  rw [State.enqueue_eq]
  split
  · rfl
  · exact s.setQueue_rest _ _

/-- The queue of a radio once an order has arrived (R65). -/
theorem State.queue_enqueue (s : State) (r q : Radio) (o : Order) :
    ((s.enqueue r o).radio q).queue = if q = r ∧ (s.radio r).state ≠ .off ∧ (s.radio r).state ≠ .fault then
      dropKind o.kind (s.radio r).queue ++ [o] else (s.radio q).queue := by
  rw [State.enqueue_eq]
  by_cases gone : (s.radio r).state = .off ∨ (s.radio r).state = .fault
  · rw [if_pos gone, if_neg (by tauto)]
  · rw [if_neg gone, State.radio_setQueue]
    by_cases same : q = r
    · subst same
      rw [if_pos rfl, if_pos (by tauto)]
    · rw [if_neg same, if_neg (by tauto)]

theorem State.queue_dropOrders (s : State) (r q : Radio) (k : OrderKind) :
    ((s.dropOrders r k).radio q).queue = if q = r then dropKind k (s.radio q).queue else (s.radio q).queue := by
  unfold State.dropOrders
  rw [State.radio_setQueue]
  split
  · next same => rw [same]
  · rfl

theorem State.portsKept.refl (s : State) (may : Port → NoticeKind → Prop) : s.portsKept s may := fun _ => ⟨rfl, fun _ _ => rfl⟩

theorem State.portsKept.trans {s t u : State} {may : Port → NoticeKind → Prop} (h : s.portsKept t may)
    (k : t.portsKept u may) : s.portsKept u may := by
  intro p
  obtain ⟨hp, hk⟩ := h p
  obtain ⟨kp, kk⟩ := k p
  refine ⟨?_, fun j hj => (kk j hj).trans (hk j hj)⟩
  rw [← hp, ← kp]

theorem State.portsKept.mono {s t : State} {may could : Port → NoticeKind → Prop} (h : s.portsKept t may)
    (wider : ∀ p k, may p k → could p k) : s.portsKept t could :=
  fun p => ⟨(h p).1, fun k no => (h p).2 k fun yes => no (wider p k yes)⟩

theorem State.portsKept.of_ports {s t : State} (h : t.ports = s.ports) (may : Port → NoticeKind → Prop) :
    s.portsKept t may := by
  have port : ∀ p, t.port p = s.port p := fun p => by unfold State.port; rw [h]
  exact fun p => ⟨by rw [port], fun k _ => by rw [port]⟩

theorem State.setNotice_portsKept (s : State) (p : Port) (k : NoticeKind) (v : Bool) {may : Port → NoticeKind → Prop}
    (h : may p k) : s.portsKept (s.setNotice p k v) may := by
  intro q
  rw [State.port_setNotice]
  by_cases same : q = p
  · subst same
    rw [if_pos rfl]
    refine ⟨rfl, fun j hj => ?_⟩
    rw [NoticeSet.has_put, if_neg]
    rintro rfl
    exact hj h
  · rw [if_neg same]
    exact ⟨rfl, fun _ _ => rfl⟩

theorem State.setQueue_portsKept (s : State) (r : Radio) (q : List Order) : s.portsKept (s.setQueue r q) orderNotice :=
  (State.portsKept.of_ports rfl _).trans (State.setNotice_portsKept _ _ _ _ ⟨by simp, rfl⟩)

theorem State.enqueue_portsKept (s : State) (r : Radio) (o : Order) : s.portsKept (s.enqueue r o) orderNotice := by
  rw [State.enqueue_eq]
  split
  · exact .refl s _
  · exact s.setQueue_portsKept _ _

theorem State.radioKept.refl (s : State) (r : Radio) : s.radioKept s r := rfl

theorem State.radioKept.trans {s t u : State} {r : Radio} (h : s.radioKept t r) (k : t.radioKept u r) : s.radioKept u r := by
  unfold State.radioKept at *
  rw [← h, ← k]

theorem Quiet.radioKept {s t : State} (h : Quiet s t) (r : Radio) : s.radioKept t r := h.radio r

theorem dropKind_dropKind (k : OrderKind) (q : List Order) : dropKind k (dropKind k q) = dropKind k q := by
  unfold dropKind
  rw [List.filter_filter]
  simp

theorem mem_dropKind {k : OrderKind} {q : List Order} {o : Order} : o ∈ dropKind k q ↔ o ∈ q ∧ o.kind ≠ k := by
  unfold dropKind
  rw [List.mem_filter, bne_iff_ne]

/-- The orders of the other kinds stand as they did when an order has joined. -/
theorem dropKind_append (k : OrderKind) (q : List Order) (o : Order) (h : o.kind = k) :
    dropKind k (dropKind k q ++ [o]) = dropKind k q := by
  unfold dropKind
  rw [List.filter_append, List.filter_filter]
  simp [h]

namespace Schedules

variable {e : Radio → Prop} {s t : State}

/-- Nothing but the radios, the scheduler and the ports has changed. -/
theorem rest (h : Schedules e s t) : { t with radios := s.radios, survey := s.survey, ports := s.ports } = s := by
  induction h with
  | refl s => rfl
  | @trans s t u _ _ h k => exact (congrArg (fun x : State =>
      { x with radios := s.radios, survey := s.survey, ports := s.ports }) k : _).trans h
  | order s r w u _ => exact congrArg (fun x : State => { x with survey := s.survey }) (s.enqueue_rest r (.survey w u))
  | drop s r => exact congrArg (fun x : State => { x with survey := s.survey }) (s.setQueue_rest r _)
  | survey s f _ => rfl

theorem portsKept (h : Schedules e s t) : s.portsKept t orderNotice := by
  induction h with
  | refl s => exact .refl s _
  | trans _ _ h k => exact h.trans k
  | order s r w u _ => exact s.enqueue_portsKept _ _
  | drop s r => exact s.setQueue_portsKept _ _
  | survey s f _ => exact .of_ports rfl _

/-- The orders of the other kinds stand as they did. -/
theorem others (h : Schedules e s t) (r : Radio) :
    dropKind .survey (t.radio r).queue = dropKind .survey (s.radio r).queue := by
  induction h with
  | refl s => rfl
  | trans _ _ h k => exact k.trans h
  | order s q w u _ =>
    rw [State.queue_enqueue]
    split
    · next same => rw [same.1]; exact dropKind_append _ _ _ rfl
    · rfl
  | drop s q =>
    rw [State.queue_dropOrders]
    split
    · exact dropKind_dropKind _ _
    · rfl
  | survey s f _ => rfl

theorem mem (h : Schedules e s t) (r : Radio) {o : Order} (other : o.kind ≠ .survey) :
    o ∈ (t.radio r).queue ↔ o ∈ (s.radio r).queue := by
  have key := congrArg (o ∈ ·) (h.others r)
  simpa only [mem_dropKind, other, not_false_eq_true, ne_eq, and_true, eq_iff_iff] using key

/-- A radio that is not READY is given no SURVEY order. -/
theorem unready (h : Schedules e s t) {r : Radio} (not : s.radioReady r = false) :
    (t.radio r).queue = (s.radio r).queue ∨ (t.radio r).queue = dropKind .survey (s.radio r).queue := by
  induction h with
  | refl s => exact .inl rfl
  | trans h _ hq kq =>
    have kq := kq (by rw [h.quiet.radioReady]; exact not)
    rcases hq not with hq | hq <;> rcases kq with kq | kq
    · exact .inl (kq.trans hq)
    · exact .inr (kq.trans (by rw [hq]))
    · exact .inr (kq.trans hq)
    · exact .inr (kq.trans (by rw [hq, dropKind_dropKind]))
  | order s q w u ready =>
    rw [State.queue_enqueue, if_neg]
    · exact .inl rfl
    · rintro ⟨rfl, _⟩
      rw [not] at ready
      cases ready
  | drop s q =>
    rw [State.queue_dropOrders]
    split
    · exact .inr rfl
    · exact .inl rfl
  | survey s f _ => exact .inl rfl

theorem runs (h : Schedules e s t) (r : Radio) : RunsOn (e r) (s.surveyOf r) (t.surveyOf r) := by
  induction h with
  | refl s => exact .refl _ _
  | trans _ _ h k => exact h.trans k
  | order s q w u _ => rw [surveyOf_of (enqueue_survey _ _ _)]; exact .refl _ _
  | drop s q => rw [surveyOf_of (dropOrders_survey _ _ _)]; exact .refl _ _
  | survey s f runs => exact runs r

theorem setSurvey (s : State) (r : Radio) {v : SurveyState} (h : RunsOn (e r) (s.surveyOf r) v) :
    Schedules e s (s.setSurvey r v) := by
  refine .survey s _ fun q => ?_
  rw [trimShared_states, PerRadio.get_set]
  split
  · next same => rw [same]; exact h
  · exact .refl _ _

theorem setSurvey_stop (s : State) (r : Radio) {v : SurveyState} (h : e r ∨ (s.surveyOf r).isRunning = false)
    (stopped : v.isRunning = false) : Schedules e s (s.setSurvey r v) := setSurvey s r (.stop h stopped)

/-- A change of the scheduler that leaves the survey states. -/
theorem fields (s : State) (f : Scheduler → Scheduler) (h : (f s.survey).states = s.survey.states := by rfl) :
    Schedules e s (s.mapSurvey f) :=
  .survey s f fun q => by rw [h]; exact .refl _ _

end Schedules

/-! ### Each operation of the scheduler -/

section
variable {e : Radio → Prop} (s : State) (r : Radio)

theorem State.orderSurvey_schedules (u : Bool) (ready : s.radioReady r = true)
    (h : e r ∨ (s.surveyOf r).isRunning = false) : Schedules e s (s.orderSurvey r u) :=
  ((Schedules.fields s Scheduler.loadOperate).trans (.setSurvey_stop _ _ h rfl)).trans (.order _ _ _ _ ready)

theorem State.surveyWanted_ready {s : State} {r : Radio} (h : s.surveyWanted r = true) : s.radioReady r = true :=
  (Bool.and_eq_true _ _ ▸ h).2

theorem State.orderWanted_schedules {s : State} {r : Radio} (h : s.surveyWanted r = true) :
    Schedules e s (s.orderSurvey r false) :=
  s.orderSurvey_schedules r false (State.surveyWanted_ready h) (.inr (by rw [surveyWanted_due h]; rfl))

theorem State.surveyTest_schedules : Schedules e s s.surveyTest := by
  unfold State.surveyTest
  split
  · exact (Schedules.ite_self fun h => State.orderWanted_schedules h).trans (.ite_self fun h => State.orderWanted_schedules h)
  · exact .ite (fun _ => .refl s) fun _ => .ite (fun h => State.orderWanted_schedules h) fun _ =>
      .ite_self fun h => State.orderWanted_schedules h

theorem State.dropSurvey_schedules : Schedules e s (s.dropSurvey r) := by
  refine Schedules.ite_self fun _ => (Schedules.drop s r).trans ?_
  dsimp only
  split
  · next h => exact .setSurvey_stop _ _ (.inr (by rw [h]; rfl)) rfl
  all_goals exact .refl _

theorem State.removeSurvey_schedules : Schedules e s (s.removeSurvey r) :=
  .ite_self fun _ => (s.dropSurvey_schedules r).trans (State.surveyTest_schedules _)

theorem State.urgentTest_schedules : Schedules e s (s.urgentTest r) := by
  refine .ite_self fun h => ?_
  simp only [Bool.and_eq_true, Bool.not_eq_true'] at h
  obtain ⟨⟨⟨_, ready⟩, stopped⟩, _⟩ := h
  exact s.orderSurvey_schedules r true ready (.inr stopped)

theorem State.urgentBegin_schedules : Schedules e s s.urgentBegin :=
  ((Schedules.fields s fun c => { c with urgent := true }).trans (State.urgentTest_schedules _ _)).trans
    (State.urgentTest_schedules _ _)

theorem State.dropUrgent_schedules : Schedules e s (s.dropUrgent r) := .ite_self fun _ => s.dropSurvey_schedules r

theorem State.urgentEnd_schedules : Schedules e s s.urgentEnd :=
  (((Schedules.fields s fun c => { c with urgent := false }).trans (State.dropUrgent_schedules _ _)).trans
    (State.dropUrgent_schedules _ _)).trans (State.surveyTest_schedules _)

theorem State.dropNonUrgent_schedules : Schedules e s (s.dropNonUrgent r) := .ite_self fun _ => s.dropSurvey_schedules r

theorem State.discardPauses_schedules : Schedules e s (s.mapSurvey Scheduler.discardPauses) :=
  .survey s _ fun q => by cases q <;> exact .wake _ _

theorem State.holdPauses_schedules (b : Bool) : Schedules e s (s.mapSurvey (Scheduler.holdPauses b)) :=
  .survey s _ fun q => by cases q <;> exact .holdPause _ _ _

theorem State.modeChange_schedules (m : SurveyMode) : Schedules e s (s.modeChange m) := by
  have drop : Schedules e s ((s.dropNonUrgent .A).dropNonUrgent .B) :=
    (s.dropNonUrgent_schedules .A).trans (State.dropNonUrgent_schedules _ .B)
  refine .ite (fun _ => .refl s) fun _ => ?_
  cases s.effMode
  case off => exact drop.trans (State.discardPauses_schedules _)
  case paused => exact drop.trans (State.holdPauses_schedules _ _)
  case continuous => exact State.holdPauses_schedules _ _
  case once => exact State.discardPauses_schedules _

theorem State.arrange_schedules (a : Arrangement) : Schedules e s (s.mapSurvey (·.arrange a)) :=
  .survey s _ fun q => by cases a <;> cases q <;> exact .withOwn _ _ _

theorem State.arrangementChange_schedules (a : Arrangement) : Schedules e s (s.arrangementChange a) :=
  .ite (fun _ => .refl s) fun _ => s.arrange_schedules _

theorem State.reform_schedules (f : State → State) : Schedules e (f s) (s.reform f) :=
  ((State.modeChange_schedules _ _).trans (State.arrangementChange_schedules _ _)).trans (State.surveyTest_schedules _)

theorem Schedules.reform {s : State} {f : State → State} (h : Schedules e s (f s)) : Schedules e s (s.reform f) :=
  h.trans (s.reform_schedules f)

theorem State.roundComplete_schedules : Schedules e s s.roundComplete := .reform (.fields s _)

theorem State.leaveOwed_schedules : Schedules e s (s.leaveOwed r) :=
  .ite_self fun _ => (Schedules.fields s fun c => { c with owed := c.owed.set r false }).trans
    (.ite_self fun _ => State.roundComplete_schedules _)

theorem State.joinOwed_schedules : Schedules e s (s.joinOwed r) := .ite_self fun _ => .fields s _

theorem State.setSurveyMode_schedules (m : SurveyMode) : Schedules e s (s.setSurveyMode m) :=
  .reform (.fields s _ (by repeat' first | rfl | split))

theorem State.surveyEndFirst_schedules (b : Bool) : Schedules e s (s.surveyEndFirst r b) :=
  (Schedules.fields s fun c => { c with last := some r }).trans (.ite_self fun _ => State.leaveOwed_schedules _ _)

theorem Scheduler.restShared_get (c : Scheduler) (p : Pause) (q : Radio) :
    (c.restShared r p).states.get q = if q = r ∨ c.states.get q = .due then .waiting none else c.states.get q := by
  unfold Scheduler.restShared
  dsimp only
  by_cases due : (c.states.set r (.waiting none)).get (otherRadio r) = .due <;> cases r <;> cases q <;>
    simp_all [otherRadio, PerRadio.get, PerRadio.set]

variable (h : e r ∨ (s.surveyOf r).isRunning = false)
include h

theorem State.surveyRest_schedules : Schedules e s (s.surveyRest r) := by
  have load : ∀ b, Schedules e s (s.loadedPause b).1 := fun b => .fields s Scheduler.loadPause
  have shared : ∀ b, Schedules e s ((s.loadedPause b).1.mapSurvey (·.restShared r (s.loadedPause b).2)) := by
    refine fun b => (load b).trans (.survey _ _ fun q => ?_)
    rw [Scheduler.restShared_get]
    split
    · next now =>
      refine .stop ?_ rfl
      rcases now with rfl | due
      · exact h
      · exact .inr (by rw [due]; rfl)
    · exact .refl _ _
  unfold State.surveyRest
  split
  · exact .setSurvey_stop _ _ h rfl
  · exact .setSurvey_stop _ _ h rfl
  all_goals
    dsimp only
    split
    · exact (load _).trans (.setSurvey_stop _ _ h rfl)
    · exact shared _

theorem State.surveyEndRest_schedules : Schedules e s (s.surveyEndRest r) := by
  refine .ite (fun urgent => ?_) fun _ => Schedules.trans ?_ (State.surveyTest_schedules _)
  · exact (s.orderSurvey_schedules r true (Bool.and_eq_true _ _ ▸ urgent).2 h).trans (State.surveyTest_schedules _)
  · split <;> first | exact .setSurvey_stop _ _ h rfl | exact s.surveyRest_schedules r h

theorem State.tellScheduler_schedules : Schedules e s (s.tellScheduler r) := by
  unfold State.tellScheduler
  split <;> first
    | exact (Schedules.setSurvey_stop _ _ h rfl).trans (State.surveyTest_schedules _)
    | exact (s.urgentTest_schedules r).trans (State.surveyTest_schedules _)
    | exact .refl s
    | exact s.removeSurvey_schedules r

theorem State.pauseExpired_schedules : Schedules e s (s.pauseExpired r) :=
  (Schedules.setSurvey_stop _ _ h rfl).trans (State.surveyTest_schedules _)

end

section
variable {e : Radio → Prop} (s : State) (r : Radio)

theorem State.cutSurvey_schedules (h : e r) : Schedules e s (s.cutSurvey r) :=
  .ite_self fun _ => (s.surveyEndFirst_schedules r false).trans (State.surveyEndRest_schedules _ r (.inl h))

theorem State.sharedPauseExpired_schedules : Schedules e s s.sharedPauseExpired :=
  s.discardPauses_schedules.trans (State.surveyTest_schedules _)

/-- No radio's survey has ended. -/
def NoneEnds (_ : Radio) : Prop := False

/-- The survey of this radio alone may have ended. -/
def EndsOn (r q : Radio) : Prop := q = r

theorem Schedules.stopped {s t : State} (h : Schedules e s t) {r : Radio} (stopped : (s.surveyOf r).isRunning = false) :
    (t.surveyOf r).isRunning = false := (h.runs r).2 stopped

theorem State.surveyRest_stopped : ((s.surveyRest r).surveyOf r).isRunning = false := by
  have shared : ∀ b, (((s.loadedPause b).1.mapSurvey (·.restShared r (s.loadedPause b).2)).surveyOf r).isRunning = false := by
    intro b
    show ((Scheduler.restShared _ r _).states.get r).isRunning = false
    rw [Scheduler.restShared_get, if_pos (.inl rfl)]
    rfl
  unfold State.surveyRest
  split
  · rw [setSurvey_surveyOf, if_pos rfl]; rfl
  · rw [setSurvey_surveyOf, if_pos rfl]; rfl
  all_goals
    dsimp only
    split
    · rw [setSurvey_surveyOf, if_pos rfl]; rfl
    · exact shared _

theorem State.orderSurvey_surveyOf (u : Bool) (q : Radio) :
    (s.orderSurvey r u).surveyOf q = if q = r then .ordered u else s.surveyOf q := by
  unfold State.orderSurvey
  rw [surveyOf_of (enqueue_survey _ _ _), setSurvey_surveyOf]
  rfl

/-- A survey that has ended does not run (R82). -/
theorem State.surveyEndRest_stopped : ((s.surveyEndRest r).surveyOf r).isRunning = false := by
  unfold State.surveyEndRest
  split
  · refine (State.surveyTest_schedules (e := NoneEnds) _).stopped ?_
    rw [State.orderSurvey_surveyOf, if_pos rfl]
    rfl
  · refine (State.surveyTest_schedules (e := NoneEnds) _).stopped ?_
    split
    all_goals first
      | exact s.surveyRest_stopped r
      | (rw [setSurvey_surveyOf, if_pos rfl]; rfl)

theorem State.cutSurvey_stopped : ((s.cutSurvey r).surveyOf r).isRunning = false := by
  unfold State.cutSurvey
  split
  · exact State.surveyEndRest_stopped _ r
  · next h => exact Bool.eq_false_iff.2 h

end

/-! ### What the snooze test does -/

/-- A POWER SNOOZE may be sent: the call is IDLE, or a callback part stands and the radio is none of its (R159, R160). -/
def State.MaySnooze (s : State) (r : Radio) : Prop :=
  (s.radio r).state.isAwake = true ∧ (s.call.state = .idle
    ∨ (s.call.part.isSome = true ∧ s.isHeldRadio r = false ∧ s.isOfferingRadio r = false))

/-- `t` comes from `s` by what the scheduler and the snooze test do. -/
inductive Tends (e : Radio → Prop) : State → State → Prop where
  | schedules {s t : State} (h : Schedules e s t) : Tends e s t
  | trans {s t u : State} : Tends e s t → Tends e t u → Tends e s u
  | snooze (s : State) (r : Radio) (may : s.MaySnooze r) : Tends e s (s.enqueue r (.power .snooze))
  | wake (s : State) (r : Radio) (asleep : s.isSnoozing r = true) : Tends e s (s.enqueue r (.power .wake))

namespace Tends

variable {e : Radio → Prop} {s t u : State}

theorem refl (s : State) : Tends e s s := .schedules (.refl s)

theorem mono {d : Radio → Prop} (de : ∀ r, d r → e r) (h : Tends d s t) : Tends e s t := by
  induction h with
  | schedules h => exact .schedules (h.mono de)
  | trans _ _ h k => exact h.trans k
  | snooze s r may => exact .snooze s r may
  | wake s r asleep => exact .wake s r asleep

theorem of_none (h : Tends NoneEnds s t) : Tends e s t := h.mono fun _ no => no.elim

theorem quiet (h : Tends e s t) : Quiet s t := by
  induction h with
  | schedules h => exact h.quiet
  | trans _ _ h k => exact h.trans k
  | snooze s r _ => exact State.enqueue_quiet _ _ _
  | wake s r _ => exact State.enqueue_quiet _ _ _

theorem rest (h : Tends e s t) : { t with radios := s.radios, survey := s.survey, ports := s.ports } = s := by
  induction h with
  | schedules h => exact h.rest
  | @trans s t u _ _ h k => exact (congrArg (fun x : State =>
      { x with radios := s.radios, survey := s.survey, ports := s.ports }) k : _).trans h
  | snooze s r _ => exact congrArg (fun x : State => { x with survey := s.survey }) (s.enqueue_rest r (.power .snooze))
  | wake s r _ => exact congrArg (fun x : State => { x with survey := s.survey }) (s.enqueue_rest r (.power .wake))

theorem portsKept (h : Tends e s t) : s.portsKept t orderNotice := by
  induction h with
  | schedules h => exact h.portsKept
  | trans _ _ h k => exact h.trans k
  | snooze s r _ => exact s.enqueue_portsKept _ _
  | wake s r _ => exact s.enqueue_portsKept _ _

theorem runs (h : Tends e s t) (r : Radio) : RunsOn (e r) (s.surveyOf r) (t.surveyOf r) := by
  induction h with
  | schedules h => exact h.runs r
  | trans _ _ h k => exact h.trans k
  | snooze s q _ => rw [surveyOf_of (enqueue_survey _ _ _)]; exact .refl _ _
  | wake s q _ => rw [surveyOf_of (enqueue_survey _ _ _)]; exact .refl _ _

theorem stopped (h : Tends e s t) {r : Radio} (stopped : (s.surveyOf r).isRunning = false) :
    (t.surveyOf r).isRunning = false := (h.runs r).2 stopped

/-- Orders of other kinds than SURVEY and POWER are neither queued nor removed. -/
theorem mem (h : Tends e s t) (r : Radio) {o : Order} (survey : o.kind ≠ .survey) (power : o.kind ≠ .power) :
    o ∈ (t.radio r).queue ↔ o ∈ (s.radio r).queue := by
  induction h with
  | schedules h => exact h.mem r survey
  | trans _ _ h k => exact k.trans h
  | snooze s q _ | wake s q _ =>
    rw [State.queue_enqueue]
    split
    · next same =>
      obtain ⟨rfl, _⟩ := same
      rw [List.mem_append, mem_dropKind, List.mem_singleton]
      refine ⟨fun h => h.elim And.left fun h => absurd (congrArg Order.kind h) power, fun h => .inl ⟨h, power⟩⟩
    · rfl

/-- The orders of other kinds stand in the same order. -/
theorem others (h : Tends e s t) (r : Radio) :
    dropKind .power (dropKind .survey (t.radio r).queue) = dropKind .power (dropKind .survey (s.radio r).queue) := by
  have swap : ∀ q, dropKind .power (dropKind .survey q) = dropKind .survey (dropKind .power q) := fun q => by
    unfold dropKind
    rw [List.filter_filter, List.filter_filter]
    congr 1
    funext o
    exact Bool.and_comm _ _
  induction h with
  | schedules h => rw [h.others]
  | trans _ _ h k => exact k.trans h
  | snooze s q _ | wake s q _ =>
    rw [State.queue_enqueue]
    split
    · next same =>
      obtain ⟨rfl, _⟩ := same
      rw [swap, swap]
      exact congrArg _ (dropKind_append .power _ _ rfl)
    · rfl

/-- A POWER SNOOZE that has joined a queue went to a radio that may be sent one. -/
theorem snoozed (h : Tends e s t) {r : Radio} (now : .power .snooze ∈ (t.radio r).queue) :
    .power .snooze ∈ (s.radio r).queue ∨ s.MaySnooze r := by
  induction h with
  | schedules h => exact .inl ((h.mem r (by decide)).1 now)
  | trans h _ hq kq =>
    rcases kq now with now | may
    · exact hq now
    · refine .inr ?_
      unfold State.MaySnooze State.isHeldRadio State.isOfferingRadio at *
      rwa [h.quiet.state, h.quiet.call] at may
  | snooze s q may =>
    rw [State.queue_enqueue] at now
    split at now
    · next same => exact .inr (same.1 ▸ may)
    · exact .inl now
  | wake s q _ =>
    rw [State.queue_enqueue] at now
    split at now
    · next same =>
      obtain ⟨rfl, _⟩ := same
      rw [List.mem_append, mem_dropKind, List.mem_singleton] at now
      rcases now with now | now
      · exact .inl now.1
      · cases now
    · exact .inl now

/-- A radio that is neither READY nor awake nor asleep, with no POWER SNOOZE queued, loses at most a SURVEY order. -/
theorem still (h : Tends e s t) {r : Radio} (awake : (s.radio r).state.isAwake = false)
    (asleep : (s.radio r).state ≠ .snooze) (none : .power .snooze ∉ (s.radio r).queue) :
    (t.radio r).queue = (s.radio r).queue ∨ (t.radio r).queue = dropKind .survey (s.radio r).queue := by
  have unready : ∀ x : State, (x.radio r).state.isAwake = false → x.radioReady r = false := by
    intro x hx
    unfold State.radioReady
    cases hs : (x.radio r).state <;> first | rfl | (rw [hs] at hx; cases hx)
  induction h with
  | schedules h => exact h.unready (unready _ awake)
  | trans h _ hq kq =>
    have now : .power .snooze ∉ (State.radio _ r).queue := fun k =>
      (h.snoozed k).elim none fun may => by rw [may.1] at awake; cases awake
    have kq := kq (by rw [h.quiet.state]; exact awake) (by rw [h.quiet.state]; exact asleep) now
    rcases hq awake asleep none with hq | hq <;> rcases kq with kq | kq
    · exact .inl (kq.trans hq)
    · exact .inr (kq.trans (by rw [hq]))
    · exact .inr (kq.trans hq)
    · exact .inr (kq.trans (by rw [hq, dropKind_dropKind]))
  | snooze s q may =>
    rw [State.queue_enqueue, if_neg]
    · exact .inl rfl
    · rintro ⟨rfl, _⟩
      rw [may.1] at awake
      cases awake
  | wake s q snoozing =>
    rw [State.queue_enqueue, if_neg]
    · exact .inl rfl
    · rintro ⟨rfl, _⟩
      simp only [State.isSnoozing, Bool.or_eq_true, beq_iff_eq, State.hasSnooze, List.contains_iff_mem] at snoozing
      exact snoozing.elim asleep none

theorem ite {c : Prop} [Decidable c] (h : c → Tends e s t) (k : ¬c → Tends e s u) : Tends e s (if c then t else u) := by
  split
  · exact h ‹_›
  · exact k ‹_›

theorem ite_self {c : Prop} [Decidable c] (h : c → Tends e s t) : Tends e s (if c then t else s) := .ite h fun _ => .refl s

end Tends

/-! ### Each operation of the supply monitor -/

section
variable {e : Radio → Prop} (s : State) (r : Radio)

theorem State.MaySnooze.schedules {s t : State} {r : Radio} (may : s.MaySnooze r) (h : Schedules e s t) : t.MaySnooze r := by
  unfold State.MaySnooze State.isHeldRadio State.isOfferingRadio at *
  rwa [h.quiet.state, h.quiet.call]

theorem State.sendSnooze_tends (may : s.MaySnooze r) : Tends e s (s.sendSnooze r) := by
  have sent : Tends e s ((s.dropSurvey r).enqueue r (.power .snooze)) :=
    (Tends.schedules (s.dropSurvey_schedules r)).trans (.snooze _ r (may.schedules (e := e) (s.dropSurvey_schedules r)))
  unfold State.sendSnooze
  split <;> first
    | exact .refl s
    | exact sent.trans (.ite_self fun _ => .schedules (State.surveyTest_schedules _))

theorem State.sendWake_tends (asleep : s.isSnoozing r = true) : Tends e s (s.sendWake r) := .wake s r asleep

theorem State.wakeOne_tends : Tends e s (s.wakeOne r) :=
  .ite_self fun h => s.sendWake_tends r (by unfold State.isSnoozing; rw [h]; rfl)

theorem State.wakeAll_tends : Tends e s s.wakeAll := (s.wakeOne_tends .A).trans (State.wakeOne_tends _ .B)

theorem State.criticalOne_tends (may : s.call.state = .idle ∨ s.call.part.isSome = true) :
    Tends e s (if s.criticalSleeper r then s.sendSnooze r else s) := by
  refine .ite_self fun h => s.sendSnooze_tends r ?_
  simp only [State.criticalSleeper, Bool.and_eq_true, Bool.not_eq_true'] at h
  obtain ⟨⟨⟨awake, held⟩, offering⟩, _⟩ := h
  exact ⟨awake, may.imp_right fun part => ⟨part, held, offering⟩⟩

theorem State.criticalSnooze_tends (may : s.call.state = .idle ∨ s.call.part.isSome = true) :
    Tends e s s.criticalSnooze := by
  have first := s.criticalOne_tends (e := e) .A may
  refine first.trans (State.criticalOne_tends _ .B ?_)
  rw [first.quiet.call]
  exact may

/-- Under LOW a radio that is sent to sleep is awake. -/
theorem State.isWorkingLow_awake {s : State} {r : Radio} (h : s.isWorkingLow r = true) (k : s.isSnoozing r = false) :
    (s.radio r).state.isAwake = true := by
  unfold State.isWorkingLow at h
  rwa [k, Bool.or_false] at h

theorem State.lowSnooze_tends (idle : s.call.state = .idle) : Tends e s s.lowSnooze := by
  unfold State.lowSnooze
  dsimp only
  split
  · next work =>
    obtain ⟨workA, workB⟩ := Bool.and_eq_true _ _ ▸ work
    split
    · next none =>
      simp only [Bool.and_eq_true, Bool.not_eq_true'] at none
      split
      · exact s.sendSnooze_tends .A ⟨State.isWorkingLow_awake workA none.1, .inl idle⟩
      · exact s.sendSnooze_tends .B ⟨State.isWorkingLow_awake workB none.2, .inl idle⟩
    · split
      · next both =>
        obtain ⟨a, b⟩ := Bool.and_eq_true _ _ ▸ both
        split
        · exact s.sendWake_tends .B b
        · exact s.sendWake_tends .A a
      · exact .refl s
  · split
    · next a => exact s.sendWake_tends .A (Bool.and_eq_true _ _ ▸ a).1
    · split
      · next b => exact s.sendWake_tends .B (Bool.and_eq_true _ _ ▸ b).1
      · exact .refl s

theorem State.snoozeTest_tends (b : Bool) : Tends e s (s.snoozeTest b) := by
  unfold State.snoozeTest
  split
  · exact s.wakeAll_tends
  · refine .ite (fun h => s.lowSnooze_tends ?_) fun _ => s.wakeAll_tends
    simp only [Bool.and_eq_true, beq_iff_eq] at h
    exact h.2
  · refine .ite (fun h => s.criticalSnooze_tends ?_) fun _ => s.wakeAll_tends
    simp only [Bool.and_eq_true, Bool.or_eq_true, beq_iff_eq] at h
    exact h.2

end

end Sys2Proof.Machine
end

section
/-! PROOFS. The snooze test (R158 to R161). -/

namespace Sys2Proof.Machine

/-! ### POWER orders -/

/-- The POWER orders of a radio stand as they did. -/
def State.PowerKept (s t : State) (q : Radio) : Prop := ∀ a, .power a ∈ (t.radio q).queue ↔ .power a ∈ (s.radio q).queue

theorem State.PowerKept.refl (s : State) (q : Radio) : s.PowerKept s q := fun _ => Iff.rfl

theorem State.PowerKept.trans {s t u : State} {q : Radio} (h : s.PowerKept t q) (k : t.PowerKept u q) : s.PowerKept u q :=
  fun a => (k a).trans (h a)

theorem Schedules.powerKept {e : Radio → Prop} {s t : State} (h : Schedules e s t) (q : Radio) : s.PowerKept t q :=
  fun _ => h.mem q (by simp [Order.kind])

theorem State.enqueue_powerKept (s : State) {r q : Radio} (ne : q ≠ r) (o : Order) : s.PowerKept (s.enqueue r o) q := by
  intro a
  rw [State.queue_enqueue, if_neg (by tauto)]

theorem RadioState.isAwake_iff (v : RadioState) : v.isAwake = true ↔ v = .starting ∨ v = .ready ∨ v = .surveying := by
  cases v <;> decide

theorem RadioState.isGone_iff (v : RadioState) : v.isGone = true ↔ v = .silent ∨ v = .fault ∨ v = .off := by
  cases v <;> decide

theorem RadioState.live_of_isAwake {v : RadioState} (h : v.isAwake = true) : v ≠ .off ∧ v ≠ .fault := by
  cases v <;> simp_all [RadioState.isAwake]

theorem State.isSnoozing_iff (s : State) (r : Radio) :
    s.isSnoozing r = true ↔ (s.radio r).state = .snooze ∨ .power .snooze ∈ (s.radio r).queue := by
  simp [State.isSnoozing, State.hasSnooze]

theorem State.isHeldRadio_iff (s : State) (r : Radio) :
    s.isHeldRadio r = true ↔ ∃ p k, s.call.part = some p ∧ p.held = some k ∧ k.radio = r := by
  simp [State.isHeldRadio, Option.any_eq_true]

theorem State.isOfferingRadio_iff (s : State) (r : Radio) :
    s.isOfferingRadio r = true ↔ ∃ p o, s.call.part = some p ∧ p.offer = some o ∧ o.radio = r := by
  simp [State.isOfferingRadio, Option.any_eq_true]

/-! ### A POWER SNOOZE arrives -/

theorem State.sendSnooze_eq {s : State} {r : Radio} (live : (s.radio r).state ≠ .off ∧ (s.radio r).state ≠ .fault) :
    Schedules NoneEnds ((s.dropSurvey r).enqueue r (.power .snooze)) (s.sendSnooze r) := by
  have test : Schedules NoneEnds ((s.dropSurvey r).enqueue r (.power .snooze))
      (if s.hasOrder r .survey then ((s.dropSurvey r).enqueue r (.power .snooze)).surveyTest
        else (s.dropSurvey r).enqueue r (.power .snooze)) := .ite_self fun _ => State.surveyTest_schedules _
  unfold State.sendSnooze
  split <;> first | exact test | simp_all

theorem State.sendSnooze_sent {s : State} {r : Radio} (awake : (s.radio r).state.isAwake = true) :
    .power .snooze ∈ ((s.sendSnooze r).radio r).queue := by
  have live := RadioState.live_of_isAwake awake
  rw [((State.sendSnooze_eq live).powerKept r .snooze), State.queue_enqueue,
    ((s.dropSurvey_schedules (e := NoneEnds) r).quiet.state r), if_pos ⟨rfl, live⟩]
  simp

theorem State.sendSnooze_powerKept {s : State} {r q : Radio} (awake : (s.radio r).state.isAwake = true) (ne : q ≠ r) :
    s.PowerKept (s.sendSnooze r) q :=
  ((s.dropSurvey_schedules (e := NoneEnds) r).powerKept q).trans
    ((State.enqueue_powerKept _ ne _).trans ((State.sendSnooze_eq (RadioState.live_of_isAwake awake)).powerKept q))

theorem State.sendWake_sent {s : State} {r : Radio} (live : (s.radio r).state ≠ .off ∧ (s.radio r).state ≠ .fault) :
    .power .wake ∈ ((s.sendWake r).radio r).queue := by
  unfold State.sendWake
  rw [State.queue_enqueue, if_pos ⟨rfl, live⟩]
  simp

/-! ### Waking (R161) -/

theorem State.wakeOne_radio (s : State) (r q : Radio) : (s.wakeOne r).radio q =
    if q = r ∧ (s.radio r).state = .snooze then
      { s.radio q with queue := dropKind .power (s.radio q).queue ++ [.power .wake] } else s.radio q := by
  unfold State.wakeOne
  by_cases asleep : (s.radio r).state = .snooze
  · have live : ¬ ((s.radio r).state = .off ∨ (s.radio r).state = .fault) := by rw [asleep]; decide
    rw [if_pos (by simp [asleep]), State.sendWake, State.enqueue_eq, if_neg live, State.radio_setQueue]
    by_cases same : q = r
    · subst same
      rw [if_pos rfl, if_pos ⟨rfl, asleep⟩]
      rfl
    · rw [if_neg same, if_neg (by tauto)]
  · rw [if_neg (by simp [asleep]), if_neg (by tauto)]

theorem State.wakeAll_radio (s : State) (q : Radio) : (s.wakeAll).radio q =
    if (s.radio q).state = .snooze then
      { s.radio q with queue := dropKind .power (s.radio q).queue ++ [.power .wake] } else s.radio q := by
  unfold State.wakeAll
  cases q <;> simp [State.wakeOne_radio]

theorem State.wakeAll_survey (s : State) : s.wakeAll.survey = s.survey := by
  have one : ∀ (s : State) r, (s.wakeOne r).survey = s.survey := fun s r => by
    unfold State.wakeOne State.sendWake
    split
    · exact enqueue_survey _ _ _
    · rfl
  unfold State.wakeAll
  rw [one, one]

/-! ### Snoozing under CRITICAL (R159) -/

/-- The conditions of R159 for one radio are tested, and acted on. -/
def State.criticalOne (s : State) (r : Radio) : State := if s.criticalSleeper r then s.sendSnooze r else s

theorem State.criticalSnooze_eq (s : State) : s.criticalSnooze = (s.criticalOne .A).criticalOne .B := rfl

theorem State.criticalSleeper_awake {s : State} {r : Radio} (h : s.criticalSleeper r = true) :
    (s.radio r).state.isAwake = true := by
  simp only [State.criticalSleeper, Bool.and_eq_true] at h
  exact h.1.1.1

theorem State.criticalOne_powerKept (s : State) {r q : Radio} (ne : q ≠ r) : s.PowerKept (s.criticalOne r) q := by
  unfold State.criticalOne
  split
  · next h => exact State.sendSnooze_powerKept (State.criticalSleeper_awake h) ne
  · exact .refl s q

theorem State.criticalOne_sent {s : State} {r : Radio} (awake : (s.radio r).state.isAwake = true)
    (held : s.isHeldRadio r = false) (offering : s.isOfferingRadio r = false) :
    .power .snooze ∈ ((s.criticalOne r).radio r).queue := by
  unfold State.criticalOne
  split
  · exact State.sendSnooze_sent awake
  · next h =>
    simpa [State.criticalSleeper, awake, held, offering, State.hasSnooze] using h

theorem State.criticalOne_same {s : State} {r : Radio}
    (h : (s.radio r).state.isAwake = false ∨ s.isHeldRadio r = true ∨ s.isOfferingRadio r = true) :
    s.criticalOne r = s := by
  refine if_neg fun k => ?_
  simp only [State.criticalSleeper, Bool.and_eq_true, Bool.not_eq_true'] at k
  obtain ⟨⟨⟨awake, held⟩, offering⟩, _⟩ := k
  rw [awake, held, offering] at h
  simp at h

theorem State.criticalOne_quiet (s : State) (r : Radio) : Quiet s (s.criticalOne r) :=
  .ite_self fun _ => State.sendSnooze_quiet _ _

theorem Quiet.isHeldRadio {s t : State} (h : Quiet s t) (r : Radio) : t.isHeldRadio r = s.isHeldRadio r := by
  unfold State.isHeldRadio
  rw [h.call]

theorem Quiet.isOfferingRadio {s t : State} (h : Quiet s t) (r : Radio) : t.isOfferingRadio r = s.isOfferingRadio r := by
  unfold State.isOfferingRadio
  rw [h.call]

theorem State.criticalSnooze_sent {s : State} {r : Radio} (awake : (s.radio r).state.isAwake = true)
    (held : s.isHeldRadio r = false) (offering : s.isOfferingRadio r = false) :
    .power .snooze ∈ (s.criticalSnooze.radio r).queue := by
  have quiet := s.criticalOne_quiet .A
  rw [State.criticalSnooze_eq]
  cases r
  · exact (State.criticalOne_powerKept (s.criticalOne .A) (by decide) .snooze).2 (State.criticalOne_sent awake held offering)
  · exact State.criticalOne_sent (by rw [quiet.state]; exact awake) (by rw [quiet.isHeldRadio]; exact held)
      (by rw [quiet.isOfferingRadio]; exact offering)

theorem State.criticalSnooze_kept {s : State} {r : Radio}
    (h : (s.radio r).state.isAwake = false ∨ s.isHeldRadio r = true ∨ s.isOfferingRadio r = true) :
    s.PowerKept s.criticalSnooze r := by
  have quiet := s.criticalOne_quiet .A
  rw [State.criticalSnooze_eq]
  cases r
  · rw [State.criticalOne_same h]
    exact State.criticalOne_powerKept s (by decide)
  · rw [State.criticalOne_same (s := s.criticalOne .A)
      (by rw [quiet.state, quiet.isHeldRadio, quiet.isOfferingRadio]; exact h)]
    exact State.criticalOne_powerKept s (by decide)

/-! ### One radio kept awake under LOW (R160) -/

/-- The number of a radio's ranked entries, counted in the list or in the table. -/
theorem State.rankedCount_eq (s : State) (r : Radio) :
    s.rankedCount r = (s.ranked.filter fun x => x.2.radio == r).length := by
  have slots : ∀ (l : List (Option Entry)) (n : Nat) (p : Entry → Bool),
      ((l.zipIdx n).filterMap fun x => x.1.map (x.2, ·)).countP (fun x => p x.2) = l.countP fun x => x.any p := by
    intro l n p
    induction l generalizing n with
    | nil => rfl
    | cons x l ih =>
      cases x with
      | none => simpa using ih (n + 1)
      | some e => simpa [List.countP_cons] using ih (n + 1)
  unfold State.rankedCount State.ranked rankedList
  rw [← List.countP_eq_length_filter, (foldr_insertRanked_perm _).countP_eq, List.countP_filter]
  have := slots s.table.slots.toList 0 fun e => e.isRanked && e.radio == r
  unfold occupiedSlots
  rw [← this]
  congr 1
  funext x
  exact Bool.and_comm _ _

section
variable {s : State}

theorem State.lowSnooze_awake (a : (s.radio .A).state.isAwake = true) (b : (s.radio .B).state.isAwake = true)
    (na : s.isSnoozing .A = false) (nb : s.isSnoozing .B = false) :
    s.lowSnooze = if s.rankedCount .A < s.rankedCount .B then s.sendSnooze .A else s.sendSnooze .B := by
  simp [State.lowSnooze, State.isWorkingLow, a, b, na, nb]

theorem State.lowSnooze_asleep (a : s.isSnoozing .A = true) (b : s.isSnoozing .B = true) :
    s.lowSnooze = if s.rankedCount .A < s.rankedCount .B then s.sendWake .B else s.sendWake .A := by
  simp [State.lowSnooze, State.isWorkingLow, a, b]

theorem RadioState.awake_not_gone {v : RadioState} (h : v.isAwake = true) : v.isGone = false := by
  cases v <;> simp_all [RadioState.isAwake, RadioState.isGone]

/-- One radio is snoozing, and the other is not. -/
theorem State.lowSnooze_one (r : Radio) (h : s.isSnoozing r = true) (k : s.isSnoozing (otherRadio r) = false) :
    s.lowSnooze = if (s.radio (otherRadio r)).state.isGone then s.sendWake r else s := by
  unfold State.lowSnooze
  cases hw : (s.radio (otherRadio r)).state.isAwake
  · cases r <;> simp_all [otherRadio, State.isWorkingLow] <;> rfl
  · have gone := RadioState.awake_not_gone hw
    cases r <;> simp_all [otherRadio, State.isWorkingLow]

theorem State.lowSnooze_none (a : s.isSnoozing .A = false) (b : s.isSnoozing .B = false)
    (h : (s.radio .A).state.isAwake = false ∨ (s.radio .B).state.isAwake = false) : s.lowSnooze = s := by
  unfold State.lowSnooze
  rcases h with h | h <;> simp [State.isWorkingLow, a, b, h]

/-- A POWER WAKE goes to a snoozing radio. -/
theorem State.sendWake_low {r : Radio} (h : s.isSnoozing r = true)
    (empty : ∀ r, (s.radio r).state = .off ∨ (s.radio r).state = .fault → (s.radio r).queue = []) :
    .power .wake ∈ ((s.sendWake r).radio r).queue ∧ ∀ q, q ≠ r → s.PowerKept (s.sendWake r) q := by
  refine ⟨State.sendWake_sent ?_, fun q ne => State.enqueue_powerKept s ne _⟩
  rcases (s.isSnoozing_iff r).1 h with asleep | queued
  · rw [asleep]
    decide
  · have some := fun gone => List.not_mem_nil ((empty r gone) ▸ queued)
    exact ⟨fun off => some (.inl off), fun fault => some (.inr fault)⟩

end

/-- Settles O30: what is common to all cases by `Tends`, then each row by the lemma of its case. -/
theorem snoozeTest : Obligations.SnoozeTest := by
  intro s begun empty t sent kept awake gone snoozing member number low critical
  have tends : Tends NoneEnds s t := s.snoozeTest_tends begun
  have isAwake : ∀ r, (s.radio r).state.isAwake = true ↔ awake r := fun r => RadioState.isAwake_iff _
  have notAwake : ∀ r, (s.radio r).state.isAwake = false ↔ ¬ awake r := fun r => by
    rw [← isAwake, Bool.not_eq_true]
  have isSnoozing : ∀ r, s.isSnoozing r = true ↔ snoozing r := fun r => s.isSnoozing_iff r
  have notSnoozing : ∀ r, s.isSnoozing r = false ↔ ¬ snoozing r := fun r => by
    rw [← isSnoozing, Bool.not_eq_true]
  have isMember : ∀ r, member r ↔ s.isHeldRadio r = true ∨ s.isOfferingRadio r = true := by
    intro r
    rw [s.isHeldRadio_iff, s.isOfferingRadio_iff]
    constructor
    · rintro ⟨p, hp, ⟨k, hk, hr⟩ | ⟨o, ho, hr⟩⟩
      · exact .inl ⟨p, k, hp, hk, hr⟩
      · exact .inr ⟨p, o, hp, ho, hr⟩
    · rintro (⟨p, k, hp, hk, hr⟩ | ⟨p, o, hp, ho, hr⟩)
      · exact ⟨p, hp, .inl ⟨k, hk, hr⟩⟩
      · exact ⟨p, hp, .inr ⟨o, ho, hr⟩⟩
  refine ⟨tends.rest, tends.quiet.radioKept, tends.portsKept, fun noLow noCritical => ?waking, fun crit => ?critical,
    fun lo => ?low⟩
  case waking =>
    have wake : t = s.wakeAll := by
      show s.snoozeTest begun = _
      unfold State.snoozeTest
      split
      · rfl
      · next c =>
        refine if_neg fun h => noLow ⟨c, ?_⟩
        simpa using h
      · next c =>
        refine if_neg fun h => noCritical ⟨c, ?_⟩
        simpa [Option.isSome_iff_ne_none] using h
    rw [wake]
    refine ⟨s.wakeAll_survey, fun r => ⟨fun asleep => ?_, fun up => ?_⟩⟩
    · rw [State.wakeAll_radio, if_pos asleep]
      rfl
    · rw [State.wakeAll_radio, if_neg up]
  case critical =>
    obtain ⟨c, rfl, may⟩ := crit
    have snooze : t = s.criticalSnooze := by
      show s.snoozeTest false = _
      unfold State.snoozeTest
      rw [c]
      exact if_pos (by simpa [Option.isSome_iff_ne_none] using may)
    intro r
    refine ⟨fun up none => ?_, fun h => ?_⟩
    · rw [isMember, not_or, Bool.not_eq_true, Bool.not_eq_true] at none
      show _ ∈ (t.radio r).queue
      rw [snooze]
      exact State.criticalSnooze_sent ((isAwake r).2 up) none.1 none.2
    · show s.PowerKept t r
      rw [snooze]
      exact State.criticalSnooze_kept (by rw [notAwake, ← isMember]; exact h)
  case low =>
    obtain ⟨c, rfl, idle⟩ := lo
    have snooze : t = s.lowSnooze := by
      show s.snoozeTest false = _
      unfold State.snoozeTest
      rw [c]
      exact if_pos (by simp [idle])
    have count : ∀ r, number r = s.rankedCount r := fun r => (s.rankedCount_eq r).symm
    have keptIs : ∀ r, kept r = s.PowerKept t r := fun _ => rfl
    have sentIs : ∀ r a, sent r a = (.power a ∈ (t.radio r).queue) := fun _ _ => rfl
    simp only [count, keptIs, sentIs]
    rw [snooze]
    refine ⟨fun a b na nb => ?_, fun a b => ?_, fun r h k g => ?_, fun r h k g => ?_, fun a b h => ?_⟩
    · rw [State.lowSnooze_awake ((isAwake _).2 a) ((isAwake _).2 b) ((notSnoozing _).2 na) ((notSnoozing _).2 nb)]
      refine ⟨fun less => ?_, fun more => ?_⟩
      · rw [if_pos less]
        exact ⟨State.sendSnooze_sent ((isAwake _).2 a), State.sendSnooze_powerKept ((isAwake _).2 a) (by decide)⟩
      · rw [if_neg (by omega)]
        exact ⟨State.sendSnooze_sent ((isAwake _).2 b), State.sendSnooze_powerKept ((isAwake _).2 b) (by decide)⟩
    · rw [State.lowSnooze_asleep ((isSnoozing _).2 a) ((isSnoozing _).2 b)]
      refine ⟨fun less => ?_, fun more => ?_⟩
      · rw [if_pos less]
        obtain ⟨woken, others⟩ := State.sendWake_low ((isSnoozing _).2 b) empty
        exact ⟨woken, others _ (by decide)⟩
      · rw [if_neg (by omega)]
        obtain ⟨woken, others⟩ := State.sendWake_low ((isSnoozing _).2 a) empty
        exact ⟨woken, others _ (by decide)⟩
    · rw [State.lowSnooze_one r ((isSnoozing _).2 h) ((notSnoozing _).2 k), if_pos ((RadioState.isGone_iff _).2 g)]
      obtain ⟨woken, others⟩ := State.sendWake_low ((isSnoozing _).2 h) empty
      exact ⟨woken, others _ (by cases r <;> decide)⟩
    · rw [State.lowSnooze_one r ((isSnoozing _).2 h) ((notSnoozing _).2 k),
        if_neg fun gone => g ((RadioState.isGone_iff _).1 gone)]
    · exact State.lowSnooze_none ((notSnoozing _).2 a) ((notSnoozing _).2 b) (by rw [notAwake, notAwake]; exact h)

end Sys2Proof.Machine
end

section
/-! PROOFS. What the reach table's operations leave of the state: `Tables`, a change of the table and of the TABLE notice
alone, with the entries after each operation, and the statements on the table's own timers (R5 to R16). -/

namespace Sys2Proof.Machine

/-! ### A change of the table alone -/

/-- `t` is `s` but for the table and the TABLE notice. -/
structure Tables (s t : State) : Prop where
  rest : { t with table := s.table, ports := s.ports } = s
  ports : s.portsKept t tableNotice

namespace Tables

variable {s t u : State}

theorem refl (s : State) : Tables s s := ⟨rfl, .refl s _⟩

theorem trans (h : Tables s t) (k : Tables t u) : Tables s u :=
  ⟨(congrArg (fun x : State => { x with table := s.table, ports := s.ports }) k.rest : _).trans h.rest, h.ports.trans k.ports⟩

theorem of_ports (rest : { t with table := s.table } = s) : Tables s t :=
  ⟨(congrArg (fun x : State => { x with ports := s.ports }) rest : _), .of_ports (congrArg State.ports rest : _) _⟩

theorem call (h : Tables s t) : t.call = s.call := (congrArg State.call h.rest : _)
theorem radios (h : Tables s t) : t.radios = s.radios := (congrArg State.radios h.rest : _)
theorem radio (h : Tables s t) (r : Radio) : t.radio r = s.radio r := State.radio_of_radios h.radios r
theorem survey (h : Tables s t) : t.survey = s.survey := (congrArg State.survey h.rest : _)
theorem surveyOf (h : Tables s t) (r : Radio) : t.surveyOf r = s.surveyOf r := surveyOf_of h.survey r
theorem journal (h : Tables s t) : t.journal = s.journal := (congrArg State.journal h.rest : _)
theorem prefs (h : Tables s t) : t.prefs = s.prefs := (congrArg State.prefs h.rest : _)
theorem supply (h : Tables s t) : t.supply = s.supply := (congrArg State.supply h.rest : _)
theorem profile (h : Tables s t) : t.profile = s.profile := (congrArg State.profile h.rest : _)
theorem linkCheck (h : Tables s t) : t.linkCheck = s.linkCheck := (congrArg State.linkCheck h.rest : _)

end Tables

theorem noteTable_portsKept (b s : State) : s.portsKept (noteTable b s) tableNotice := by
  unfold noteTable
  split
  · exact .refl s _
  · exact s.setNotice_portsKept _ _ _ ⟨rfl, rfl⟩

theorem State.setSlots_tables (s : State) (t : Slots) : Tables s (s.setSlots t) where
  rest := (congrArg (fun x : State => { x with table := s.table, ports := s.ports })
    (noteTable_rest s { s with table := { s.table with slots := t } }) : _)
  ports := (State.portsKept.of_ports rfl _).trans (noteTable_portsKept _ _)

theorem State.setSlots_table (s : State) (t : Slots) : (s.setSlots t).table = { s.table with slots := t } :=
  (noteTable_quiet _ _).table

theorem State.setSlots_entry (s : State) (t : Slots) (i : Nat) : (s.setSlots t).entry i = slotAt t i := by
  unfold State.entry
  rw [State.setSlots_table]

theorem State.mapTable_tables (s : State) (f : Entry → Option Entry) : Tables s (s.mapTable f) := s.setSlots_tables _

theorem State.mapTable_table (s : State) (f : Entry → Option Entry) :
    (s.mapTable f).table = { s.table with slots := mapEntries s.table.slots f } := s.setSlots_table _

theorem State.mapTable_entry (s : State) (f : Entry → Option Entry) (i : Nat) :
    (s.mapTable f).entry i = (s.entry i).bind f := (mapTable_facts s f).1 i

theorem State.mapSlot_tables (s : State) (i : Nat) (f : Entry → Option Entry) : Tables s (s.mapSlot i f) := by
  unfold State.mapSlot
  split
  · exact s.setSlots_tables _
  · exact .refl s

/-- A change of one slot leaves the table's timers. -/
theorem State.mapSlot_timers (s : State) (i : Nat) (f : Entry → Option Entry) :
    { (s.mapSlot i f).table with slots := s.table.slots } = s.table := by
  unfold State.mapSlot
  split
  · rw [State.setSlots_table]
  · rfl

theorem State.mapSlot_entry (s : State) (i j : Nat) (f : Entry → Option Entry) :
    (s.mapSlot i f).entry j = if j = i then (s.entry j).bind f else s.entry j := by
  cases h : s.entry i with
  | none =>
    have same : s.mapSlot i f = s := by unfold State.mapSlot; rw [h]
    rw [same]
    split
    · next at_i => rw [at_i, h]; rfl
    · rfl
  | some e =>
    obtain ⟨changed, others, _⟩ := mapSlot_facts s i f e h
    split
    · next at_i => rw [at_i, h]; exact changed
    · next other => exact others j other

theorem State.setSilentHold_tables (s : State) (r : Radio) (v : Option Nat) : Tables s (s.setSilentHold r v) := .of_ports rfl

/-! ### Age thresholds of an entry (R5 to R7) -/

section
variable {p : Profile} {e : Entry}

theorem Entry.thresholds_pinned (pin : e.pin = true) : e.thresholds p = some e := by
  simp [Entry.thresholds, Entry.fadeStep, Entry.lostStep, Entry.releaseStep, pin]

theorem Entry.thresholds_lost (pin : e.pin = false) (lost : e.state = .lost) :
    e.thresholds p = if e.age < 4 * (p.lost * 1000) then some e else none := by
  simp [Entry.thresholds, Entry.fadeStep, Entry.lostStep, Entry.releaseStep, lost, pin, Profile.releaseMs, Profile.lostMs]

theorem Entry.fadeStep_young {g : Heard} (ranked : e.state = .ranked g) (young : g = .fading ∨ e.age < p.fade * 1000) :
    e.fadeStep p = e := by
  unfold Entry.fadeStep
  split
  · rfl
  · next old =>
    rcases young with rfl | young
    · rw [ranked]
    · simp [Profile.fadeMs, young] at old

/-- An entry below the thresholds of its state keeps it. -/
theorem Entry.thresholds_young {g : Heard} (ranked : e.state = .ranked g) (fade : g = .fading ∨ e.age < p.fade * 1000)
    (lost : g ≠ .fading ∨ e.age < p.lost * 1000) : e.thresholds p = some e := by
  unfold Entry.thresholds
  rw [Entry.fadeStep_young ranked fade]
  have kept : e.lostStep p = e := by
    unfold Entry.lostStep
    split
    · rfl
    · next old =>
      rcases lost with lost | lost
      · rw [ranked]; cases g <;> first | rfl | exact absurd rfl lost
      · simp [Profile.lostMs, lost] at old
  rw [kept]
  unfold Entry.releaseStep
  rw [ranked]
  split <;> rfl

/-- An entry that has reached the fade time alone is FADING. -/
theorem Entry.thresholds_fading {g : Heard} (pin : e.pin = false) (ranked : e.state = .ranked g) (heard : g ≠ .fading)
    (old : p.fade * 1000 ≤ e.age) (lost : e.age < p.lost * 1000) :
    e.thresholds p = some (e.enterRanked p.biases .fading) := by
  unfold Entry.thresholds
  have faded : e.fadeStep p = e.enterRanked p.biases .fading := by
    unfold Entry.fadeStep
    split
    · next young =>
      rw [pin, Bool.false_or] at young
      exact absurd (of_decide_eq_true young) (Nat.not_lt.2 old)
    · rw [ranked]
      cases g <;> first | rfl | exact absurd rfl heard
  rw [faded]
  have young : (e.enterRanked p.biases .fading).thresholds p = some (e.enterRanked p.biases .fading) :=
    Entry.thresholds_young (g := .fading) rfl (.inl rfl) (.inr lost)
  unfold Entry.thresholds at young
  rwa [Entry.fadeStep_young (g := .fading) rfl (.inl rfl)] at young

end

/-! ### The age thresholds' own events -/

section
variable {p : Profile} {e : Entry} {f : EntryState → Bool} {n : Nat}

theorem Entry.ageReached_other (h : e.pin = true ∨ f e.state = false) : e.ageReached p f n = some e := by
  unfold Entry.ageReached
  rcases h with h | h <;> simp [h]

theorem Entry.ageReached_applies (pin : e.pin = false) (h : f e.state = true) :
    e.ageReached p f n = ({ e with age := max e.age n } : Entry).thresholds p := by
  simp [Entry.ageReached, pin, h]

end

/-- Settles O37: an event changes the one slot, and `mapSlot_facts` says what is left. -/
theorem ageThresholds : Obligations.AgeThresholds := by
  intro s i reset
  dsimp only
  have none : ∀ f n, (∀ e, s.entry i = some e → e.pin = true ∨ f e.state = false) →
      s.mapSlot i (·.ageReached s.profile f n) = s :=
    fun f n h => mapSlot_same s i _ fun e he => Entry.ageReached_other (h e he)
  refine ⟨fun e he pin heard young x hx => ?_, fun e he pin fading young lost => ?_, fun e he pin lost => ?_,
    fun h => ?_, fun h => ?_, fun h => ?_⟩
  · obtain ⟨now, facts⟩ := mapSlot_facts s i (·.ageReached s.profile EntryState.mayFade s.profile.fadeMs) e he
    refine ⟨_, State.next_event reset rfl, now.trans ?_, facts⟩
    rw [Entry.ageReached_applies pin (by rcases heard with h | h <;> rw [h] <;> rfl)]
    subst hx
    rcases heard with h | h <;>
      exact Entry.thresholds_fading pin h (by decide) (Nat.le_max_right _ _) young
  · obtain ⟨now, facts⟩ := mapSlot_facts s i (·.ageReached s.profile EntryState.mayBeLost s.profile.lostMs) e he
    refine ⟨_, State.next_event reset rfl, now.trans ?_, facts⟩
    rw [Entry.ageReached_applies pin (by rw [fading]; rfl)]
    have old : s.profile.lost * 1000 ≤ max e.age (s.profile.lost * 1000) := Nat.le_max_right _ _
    have young : max e.age (s.profile.lost * 1000) < 4 * (s.profile.lost * 1000) := by omega
    simp [Entry.thresholds, Entry.fadeStep, Entry.lostStep, Entry.releaseStep, pin, fading, Profile.lostMs,
      Profile.releaseMs, young]
  · obtain ⟨now, facts⟩ := mapSlot_facts s i (·.ageReached s.profile EntryState.mayBeReleased s.profile.releaseMs) e he
    refine ⟨_, State.next_event reset rfl, now.trans ?_, facts⟩
    rw [Entry.ageReached_applies pin (by rw [lost]; rfl)]
    refine (Entry.thresholds_lost (e := { e with age := max e.age s.profile.releaseMs }) pin lost).trans (if_neg ?_)
    exact Nat.not_lt.2 (Nat.le_max_right _ _)
  · refine State.next_event reset (none _ _ fun e he => (h e he).imp_right fun ⟨fresh, steady⟩ => ?_)
    cases hs : e.state with
    | ranked g => cases g <;> first | rfl | exact absurd hs fresh | exact absurd hs steady
    | _ => rfl
  · refine State.next_event reset (none _ _ fun e he => (h e he).imp_right fun other => ?_)
    cases hs : e.state with
    | ranked g => cases g <;> first | rfl | exact absurd hs other
    | _ => rfl
  · refine State.next_event reset (none _ _ fun e he => (h e he).imp_right fun other => ?_)
    cases hs : e.state with
    | lost => exact absurd hs other
    | _ => rfl

/-! ### The table's own timers -/

/-- The entry of a slot once the silent-hold time of a radio has reached the lost time (R10). -/
def Entry.holdEnded (p : Profile) (r : Radio) (e : Entry) : Option Entry :=
  match e.state with
  | .held _ => if e.radio = r ∧ e.pin = false then (e.becomeLost p).thresholds p else some e
  | .ranked _ | .lost => some e

theorem Entry.holdEnded_other {p : Profile} {r : Radio} {e : Entry}
    (h : e.radio ≠ r ∨ e.pin = true ∨ ∀ g, e.state ≠ .held g) : e.holdEnded p r = some e := by
  unfold Entry.holdEnded
  split
  · next g held =>
    rw [if_neg]
    rintro ⟨radio, pin⟩
    rcases h with h | h | h
    · exact h radio
    · rw [pin] at h; cases h
    · exact h g held
  all_goals rfl

theorem Entry.holdEnded_held {p : Profile} {r : Radio} {e : Entry} {g : Heard} (radio : e.radio = r) (pin : e.pin = false)
    (held : e.state = .held g) (positive : 0 < p.lost) : e.holdEnded p r = if e.age < 4 * (p.lost * 1000) then
      some { e with state := .lost, age := max e.age (p.lost * 1000) } else none := by
  unfold Entry.holdEnded
  rw [held]
  dsimp only
  rw [if_pos ⟨radio, pin⟩, becomeLost_thresholds _ _ pin positive]

theorem State.silentHoldReached_eq (s : State) (r : Radio) :
    s.silentHoldReached r = (s.mapTable (·.holdEnded s.profile r)).setSilentHold r none := rfl

theorem State.silentHoldReached_tables (s : State) (r : Radio) : Tables s (s.silentHoldReached r) :=
  (s.mapTable_tables _).trans (State.setSilentHold_tables _ _ _)

theorem State.silentHoldReached_entry (s : State) (r : Radio) (i : Nat) :
    (s.silentHoldReached r).entry i = (s.entry i).bind (·.holdEnded s.profile r) := s.mapTable_entry _ i

theorem State.silentHoldReached_timers (s : State) (r : Radio) :
    (s.silentHoldReached r).table.silentHold = s.table.silentHold.set r none
      ∧ (s.silentHoldReached r).table.relax = s.table.relax := by
  rw [State.silentHoldReached_eq]
  unfold State.setSilentHold
  dsimp only
  rw [State.mapTable_table]
  exact ⟨rfl, rfl⟩

/-- An entry once the credit-relax timer has expired (R16). -/
def Entry.relaxed (b : Biases) (e : Entry) : Entry :=
  if relaxCredit e.credit = e.credit then e else ({ e with credit := relaxCredit e.credit } : Entry).rescore b

theorem relaxCredit_eq (c : Nat) : relaxCredit c = if c < 8 then c + 1 else if 8 < c then c - 1 else 8 := by
  unfold relaxCredit
  show (if 8 < c then c - 1 else if c < 8 then c + 1 else c) = _
  split <;> split <;> omega

theorem Entry.isRanked_ranked {e : Entry} {g : Heard} (h : e.state = .ranked g) : e.isRanked = true := by
  unfold Entry.isRanked; rw [h]

theorem Entry.isRanked_unranked {e : Entry} (h : ∀ g, e.state ≠ .ranked g) : e.isRanked = false := by
  unfold Entry.isRanked
  split
  · next g k => exact absurd k (h g)
  all_goals rfl

theorem Entry.relaxed_rescored {b : Biases} {e : Entry} (h : ∃ g, e.state = .ranked g)
    (change : relaxCredit e.credit ≠ e.credit) :
    e.relaxed b = { e with credit := relaxCredit e.credit, score := scoreOf b { e with credit := relaxCredit e.credit } } := by
  obtain ⟨g, ranked⟩ := h
  unfold Entry.relaxed
  rw [if_neg change]
  exact if_pos (Entry.isRanked_ranked ranked)

theorem Entry.relaxed_kept {b : Biases} {e : Entry}
    (h : ¬ ((∃ g, e.state = .ranked g) ∧ relaxCredit e.credit ≠ e.credit)) :
    e.relaxed b = { e with credit := relaxCredit e.credit } := by
  unfold Entry.relaxed
  split
  · next same => rw [same]
  · next change =>
    refine if_neg (Bool.eq_false_iff.1 (Entry.isRanked_unranked fun g ranked => h ⟨⟨g, ranked⟩, change⟩))

theorem State.relaxCredits_eq (s : State) : s.relaxCredits =
    { s.mapTable (fun e => some (e.relaxed s.profile.biases)) with
      table := { (s.mapTable fun e => some (e.relaxed s.profile.biases)).table with relax := 0 } } := rfl

theorem State.exclusionExpired_idle {s : State} {i : Nat} (h : ∀ e, s.entry i = some e → e.excludedFor = none) :
    s.exclusionExpired i = s := by
  unfold State.exclusionExpired
  split
  · next e he => rw [h e he]; rfl
  · rfl

theorem State.exclusionExpired_ends {s : State} {i : Nat} {e : Entry} {n : Nat} (he : s.entry i = some e)
    (h : e.excludedFor = some n) :
    s.exclusionExpired i = (s.mapSlot i fun e => some { e with excludedFor := none }).callEvent e.radio := by
  unfold State.exclusionExpired
  rw [he]
  dsimp only
  rw [h]
  rfl

/-- A candidate event changes nothing where the call looks for no entry (R95, R126). -/
theorem State.callEvent_deaf {s : State} (r : Radio) (seeking : s.call.state ≠ .seeking) (placing : s.call.state ≠ .placing)
    (recovering : s.call.state ≠ .recovering) : s.callEvent r = s := by
  unfold State.callEvent
  cases h : s.call.state <;> first | rfl | contradiction

/-- Settles O38: each timer's operation is one pass over the table, or one change of a slot. -/
theorem tableTimers : Obligations.TableTimers := by
  intro s reset
  refine ⟨fun r => ⟨fun none => ?_, fun n running => ?_⟩, fun i => ⟨fun none => ?_, ?_⟩, ?_⟩
  · exact State.next_event reset (by unfold State.silentHoldExpired; rw [none]; rfl)
  · have tables := s.silentHoldReached_tables r
    obtain ⟨hold, relax⟩ := s.silentHoldReached_timers r
    refine ⟨_, State.next_event reset (by unfold State.silentHoldExpired; rw [running]; rfl), tables.rest, tables.ports,
      hold, relax, fun i free => ?_, fun i e he => ⟨fun other => ?_, fun g radio pin held positive => ?_⟩⟩
    · rw [State.silentHoldReached_entry, free]; rfl
    · rw [State.silentHoldReached_entry, he]; exact Entry.holdEnded_other other
    · rw [State.silentHoldReached_entry, he]; exact Entry.holdEnded_held radio pin held positive
  · exact State.next_event reset (State.exclusionExpired_idle none)
  · intro e n he excluded seeking placing recovering
    have tables := s.mapSlot_tables i fun e => some { e with excludedFor := none }
    refine ⟨_, State.next_event reset ((State.exclusionExpired_ends he excluded).trans
      (State.callEvent_deaf e.radio ?_ ?_ ?_)), tables.rest, tables.ports, State.mapSlot_timers _ _ _, ?_, fun j other => ?_⟩
    · rwa [tables.call]
    · rwa [tables.call]
    · rwa [tables.call]
    · rw [State.mapSlot_entry, if_pos rfl, he]; rfl
    · rw [State.mapSlot_entry, if_neg other]
  · have tables := s.mapTable_tables fun e => some (e.relaxed s.profile.biases)
    have entry (i : Nat) : s.relaxCredits.entry i = (s.entry i).bind fun e => some (e.relaxed s.profile.biases) :=
      s.mapTable_entry _ i
    refine ⟨_, State.next_event reset s.relaxCredits_eq, ?_, ?_, ?_, rfl, fun i free => ?_, fun i e he => ?_⟩
    · exact (tables.trans (.of_ports rfl)).rest
    · exact (tables.trans (.of_ports rfl)).ports
    · show (s.mapTable _).table.silentHold = _
      rw [State.mapTable_table]
    · exact (entry i).trans (by rw [free]; rfl)
    · refine ⟨relaxCredit e.credit, relaxCredit_eq _, fun h => ?_, fun h => ?_⟩
      · exact (entry i).trans (by rw [he]; exact congrArg some (Entry.relaxed_rescored h.1 h.2))
      · exact (entry i).trans (by rw [he]; exact congrArg some (Entry.relaxed_kept h))

end Sys2Proof.Machine
end

section
/-! PROOFS. The survey states and the orders that the tests of R77 leave, and the statements on the pauses and on SET SURVEY
MODE (R74 to R78, R83). -/

namespace Sys2Proof.Machine

/-! ### What an order, and a removal, does -/

section
variable (s : State) (r q : Radio) (u : Bool)

theorem State.orderSurvey_survey : (s.orderSurvey r u).survey =
    ({ s.survey.loadOperate with states := s.survey.states.set r (.ordered u) } : Scheduler).trimShared :=
  enqueue_survey _ _ _

/-- The SURVEY order stands last in the queue of a radio that takes orders, with the operate time in force, the preload
first (R77, R84). -/
theorem State.orderSurvey_queue (live : (s.radio r).state ≠ .off ∧ (s.radio r).state ≠ .fault) :
    ((s.orderSurvey r u).radio r).queue
      = dropKind .survey (s.radio r).queue ++ [.survey (s.survey.operatePreload.getD s.survey.operate * 1000) u] := by
  unfold State.orderSurvey
  rw [State.queue_enqueue, if_pos ⟨rfl, live⟩]
  have operate : (s.mapSurvey Scheduler.loadOperate |>.setSurvey r (.ordered u)).survey.operate
      = s.survey.operatePreload.getD s.survey.operate := by
    have rest := setSurvey_rest (s.mapSurvey Scheduler.loadOperate) r (.ordered u)
    exact (congrArg Scheduler.operate rest : _)
  rw [operate]
  rfl

theorem State.orderSurvey_queue_other (ne : q ≠ r) : ((s.orderSurvey r u).radio q).queue = (s.radio q).queue := by
  unfold State.orderSurvey
  rw [State.queue_enqueue, if_neg fun h => ne h.1]
  rfl

/-- What the operate time in force will be is as it was. -/
theorem State.orderSurvey_operate : (s.orderSurvey r u).survey.operatePreload.getD (s.orderSurvey r u).survey.operate
    = s.survey.operatePreload.getD s.survey.operate := by
  rw [State.orderSurvey_survey]
  unfold Scheduler.trimShared
  split <;> rfl

theorem State.dropSurvey_surveyOf : (s.dropSurvey r).surveyOf q = if q = r ∧ s.hasOrder r .survey = true
    ∧ (∃ u, s.surveyOf r = .ordered u) then .due else s.surveyOf q := by
  have drop (x : Radio) : (s.dropOrders r .survey).surveyOf x = s.surveyOf x := surveyOf_of (dropOrders_survey _ _ _) x
  unfold State.dropSurvey
  split
  · next has =>
    dsimp only
    rw [drop]
    split
    · next u ordered =>
      rw [setSurvey_surveyOf, drop]
      by_cases same : q = r
      · rw [if_pos same, if_pos ⟨same, has, u, ordered⟩]
      · rw [if_neg same, if_neg fun h => same h.1]
    all_goals
      next other => rw [drop, if_neg]; rintro ⟨-, -, u, ordered⟩; rw [other] at ordered; cases ordered
  · next has => rw [if_neg fun h => has h.2.1]

theorem State.dropSurvey_queue : ((s.dropSurvey r).radio q).queue =
    if q = r then dropKind .survey (s.radio q).queue else (s.radio q).queue := by
  unfold State.dropSurvey
  split
  · dsimp only
    have dropped := s.queue_dropOrders r q .survey
    split <;> exact dropped
  · next has =>
    split
    · next same =>
      subst same
      refine (List.filter_eq_self.2 fun o ho => ?_).symm
      simp only [State.hasOrder, List.any_eq_true, not_exists, not_and, beq_iff_eq] at has
      exact bne_iff_ne.2 (has o ho)
    · rfl

end

/-! ### What the test of R77 does -/

section
variable {s t : State} {q r : Radio}

theorem surveyWanted_iff : s.surveyWanted q = true ↔ (s.effMode = .continuous ∨ (s.effMode = .once ∧ s.survey.owed.get q = true))
    ∧ s.surveyOf q = .due ∧ (s.radio q).state = .ready := by
  unfold State.surveyWanted State.radioReady
  cases s.effMode <;> simp [and_assoc]

theorem surveyWanted_off (off : s.effMode = .off ∨ s.effMode = .paused) : s.surveyWanted q = false := by
  rw [← Bool.not_eq_true, surveyWanted_iff]
  rcases off with h | h <;> rw [h] <;> rintro ⟨h | h, _⟩ <;> cases h <;> contradiction

/-- Another radio is as much wanted once a radio has been ordered a survey. -/
theorem State.orderSurvey_wanted (ne : q ≠ r) (u : Bool) : (s.orderSurvey r u).surveyWanted q = s.surveyWanted q := by
  have kept : SurveyKept (otherRadio r) s (s.orderSurvey r u) :=
    .orderSurvey s r u fun h => by cases r <;> cases h
  have quiet := s.orderSurvey_quiet r u
  have mode : (s.orderSurvey r u).effMode = s.effMode := by
    unfold State.effMode
    rw [kept.mode, quiet.inner.same.supply]
  rw [Bool.eq_iff_iff, surveyWanted_iff, surveyWanted_iff, mode, kept.owed, State.orderSurvey_surveyOf, if_neg ne,
    quiet.state]

/-- A radio that is wanted is ordered a survey, and no other. -/
def State.orderWanted (s : State) (r : Radio) : State := if s.surveyWanted r then s.orderSurvey r false else s

theorem State.orderWanted_surveyOf : (s.orderWanted r).surveyOf q =
    if q = r ∧ s.surveyWanted r = true then .ordered false else s.surveyOf q := by
  unfold State.orderWanted
  split
  · next wanted =>
    rw [State.orderSurvey_surveyOf]
    by_cases same : q = r <;> simp [same, wanted]
  · next wanted => rw [if_neg fun h => wanted h.2]

theorem State.orderWanted_queue : ((s.orderWanted r).radio q).queue = if q = r ∧ s.surveyWanted r = true then
    dropKind .survey (s.radio r).queue ++ [.survey (s.survey.operatePreload.getD s.survey.operate * 1000) false]
    else (s.radio q).queue := by
  unfold State.orderWanted
  split
  · next wanted =>
    by_cases same : q = r
    · subst same
      have ready := (surveyWanted_iff.1 wanted).2.2
      rw [if_pos ⟨rfl, wanted⟩, State.orderSurvey_queue _ _ _ (by rw [ready]; exact ⟨by decide, by decide⟩)]
    · rw [if_neg fun h => same h.1, State.orderSurvey_queue_other _ _ _ _ same]
  · next wanted => rw [if_neg fun h => wanted h.2]

theorem State.orderWanted_operate : (s.orderWanted r).survey.operatePreload.getD (s.orderWanted r).survey.operate
    = s.survey.operatePreload.getD s.survey.operate := by
  unfold State.orderWanted
  split
  · exact s.orderSurvey_operate r false
  · rfl

theorem State.orderWanted_wanted (ne : q ≠ r) : (s.orderWanted r).surveyWanted q = s.surveyWanted q := by
  unfold State.orderWanted
  split
  · exact State.orderSurvey_wanted ne false
  · rfl

theorem State.surveyTest_parallel (h : s.effArrangement = .parallel) : s.surveyTest = (s.orderWanted .A).orderWanted .B := by
  unfold State.surveyTest
  rw [h]
  rfl

theorem State.surveyTest_alternate (h : s.effArrangement = .alternate) (a : (s.surveyOf .A).isBusy = false)
    (b : (s.surveyOf .B).isBusy = false) : s.surveyTest =
      if s.surveyWanted ((s.survey.last.map otherRadio).getD .A) then
        s.orderSurvey ((s.survey.last.map otherRadio).getD .A) false
      else s.orderWanted (otherRadio ((s.survey.last.map otherRadio).getD .A)) := by
  unfold State.surveyTest
  rw [h]
  simp only [a, b, Bool.or_self, Bool.false_eq_true, if_false]
  rfl

/-- The test orders a survey of a wanted radio, or leaves its survey state. -/
theorem State.surveyTest_surveyOf (s : State) (q : Radio) : s.surveyTest.surveyOf q = s.surveyOf q
    ∨ (s.surveyWanted q = true ∧ s.surveyTest.surveyOf q = .ordered false) := by
  have one (t : State) (r : Radio) : (t.orderWanted r).surveyOf q = t.surveyOf q
      ∨ (t.surveyWanted q = true ∧ (t.orderWanted r).surveyOf q = .ordered false) := by
    rw [State.orderWanted_surveyOf]
    split
    · next h => exact .inr ⟨h.1 ▸ h.2, rfl⟩
    · exact .inl rfl
  cases arrangement : s.effArrangement with
  | parallel =>
    rw [State.surveyTest_parallel arrangement]
    rcases one (s.orderWanted .A) .B with h | ⟨wanted, h⟩
    · rw [h]; exact one s .A
    · rcases one s .A with k | ⟨wanted', _⟩
      · refine .inr ⟨?_, h⟩
        rw [surveyWanted_due wanted] at k
        cases q
        · rw [State.orderWanted_surveyOf, if_neg (by simp)] at h
          rw [surveyWanted_due wanted] at h
          cases h
        · rwa [State.orderWanted_wanted (by decide)] at wanted
      · exact .inr ⟨wanted', h⟩
  | alternate =>
    unfold State.surveyTest
    rw [arrangement]
    dsimp only
    split
    · exact .inl rfl
    · split
      · next wanted =>
        have := one s ((s.survey.last.map otherRadio).getD .A)
        unfold State.orderWanted at this
        rwa [if_pos wanted] at this
      · exact one s _

/-- A test that orders nothing changes nothing. -/
theorem State.surveyTest_off (off : s.effMode = .off ∨ s.effMode = .paused) : s.surveyTest = s := by
  have none (r : Radio) : s.surveyWanted r = false := surveyWanted_off off
  unfold State.surveyTest
  split <;> simp [none]

theorem State.surveyTest_unready (unready : (s.radio q).state ≠ .ready) : s.surveyTest.surveyOf q = s.surveyOf q :=
  (s.surveyTest_surveyOf q).resolve_right fun h => unready (surveyWanted_iff.1 h.1).2.2

/-- Under PARALLEL every wanted radio is ordered a survey (R77). -/
theorem State.surveyTest_wanted (parallel : s.effArrangement = .parallel) (wanted : s.surveyWanted q = true) :
    s.surveyTest.surveyOf q = .ordered false ∧ (s.surveyTest.radio q).queue = dropKind .survey (s.radio q).queue
      ++ [.survey (s.survey.operatePreload.getD s.survey.operate * 1000) false] := by
  rw [State.surveyTest_parallel parallel, State.orderWanted_surveyOf, State.orderWanted_surveyOf, State.orderWanted_queue,
    State.orderWanted_queue, State.orderWanted_queue, State.orderWanted_operate, State.orderWanted_wanted (by decide)]
  cases q
  · simp [wanted]
  · simp [wanted]

theorem State.surveyTest_shared (s : State) : s.surveyTest.survey.shared = s.survey.shared
    ∨ s.surveyTest.survey.shared = none := by
  have order (t : State) (r : Radio) : (t.orderSurvey r false).survey.shared = t.survey.shared
      ∨ (t.orderSurvey r false).survey.shared = none := by
    rw [State.orderSurvey_survey]
    unfold Scheduler.trimShared
    split
    · exact .inl rfl
    · exact .inr rfl
  have one (t : State) (r : Radio) : (if t.surveyWanted r = true then t.orderSurvey r false else t).survey.shared = t.survey.shared
      ∨ (if t.surveyWanted r = true then t.orderSurvey r false else t).survey.shared = none := by
    split
    · exact order t r
    · exact .inl rfl
  unfold State.surveyTest
  split
  · dsimp only
    rcases one (if s.surveyWanted .A = true then s.orderSurvey .A false else s) .B with h | h
    · rw [h]; exact one s .A
    · exact .inr h
  · split
    · exact .inl rfl
    · dsimp only
      split
      · exact order s _
      · exact one s _

end

/-! ### The pauses (R83) -/

theorem State.ownPauseExpired_none {s : State} {r : Radio} (h : ∀ n, s.surveyOf r ≠ .waiting (some ⟨n, false⟩)) :
    s.ownPauseExpired r = s := by
  unfold State.ownPauseExpired
  refine if_neg ?_
  unfold SurveyState.ownPause
  split
  · next own waiting =>
    cases own with
    | none => simp
    | some p =>
      obtain ⟨n, held⟩ := p
      cases held
      · exact absurd waiting (h n)
      · simp [Pause.counts]
  all_goals simp

theorem State.sharedExpired_none {s : State} (h : ∀ n, s.survey.shared ≠ some ⟨n, false⟩) : s.sharedExpired = s := by
  unfold State.sharedExpired
  refine if_neg ?_
  cases shared : s.survey.shared with
  | none => simp
  | some p =>
    obtain ⟨n, held⟩ := p
    cases held
    · exact absurd shared (h n)
    · simp [Pause.counts]

theorem wake_not_waiting (v : SurveyState) (p : Option Pause) : v.wake ≠ .waiting p := by
  intro h
  have no := wake_isWaiting v
  rw [h] at no
  cases no

theorem State.discardPauses_surveyOf (s : State) (r : Radio) :
    (s.mapSurvey Scheduler.discardPauses).surveyOf r = (s.surveyOf r).wake := by cases r <;> rfl

theorem surveyTest_not_waiting {s : State} {q : Radio} (h : ∀ p, s.surveyOf q ≠ .waiting p) (p : Option Pause) :
    s.surveyTest.surveyOf q ≠ .waiting p := by
  rcases s.surveyTest_surveyOf q with k | ⟨-, k⟩ <;> rw [k]
  · exact h p
  · simp

/-- The survey state and the queue of a READY radio that a pause leaves DUE where CONTINUOUS, NORMAL and PARALLEL hold. -/
theorem State.surveyTest_ready {s : State} {q : Radio} (due : s.surveyOf q = .due) (mode : s.survey.mode = .continuous)
    (normal : s.supply.condition = .normal) (parallel : s.profile.arrangement = .parallel)
    (ready : (s.radio q).state = .ready) : s.surveyTest.surveyOf q = .ordered false
      ∧ (s.surveyTest.radio q).queue.getLast? = some (.survey (s.survey.operatePreload.getD s.survey.operate * 1000) false) := by
  have continuous : s.effMode = .continuous := by rw [effMode_eq, normal, mode]; rfl
  obtain ⟨state, queue⟩ := State.surveyTest_wanted (q := q) (by rw [effArrangement_eq, normal, parallel]; rfl)
    (surveyWanted_iff.2 ⟨.inl continuous, due, ready⟩)
  exact ⟨state, by rw [queue, List.getLast?_append]; rfl⟩

theorem otherRadio_ne (r : Radio) : otherRadio r ≠ r := by cases r <;> decide

/-- Settles O36. -/
theorem pauseExpiries : Obligations.PauseExpiries := by
  refine ⟨fun s r reset => ⟨fun none => State.next_event reset (State.ownPauseExpired_none none), fun n waiting => ?_⟩,
    fun s reset => ⟨fun none => State.next_event reset (State.sharedExpired_none none), fun n shared => ?_⟩⟩
  · have schedules : Schedules NoneEnds s (s.pauseExpired r) := s.pauseExpired_schedules r (.inr (by rw [waiting]; rfl))
    have due : (s.setSurvey r .due).surveyOf r = .due := by rw [setSurvey_surveyOf, if_pos rfl]
    have rest := setSurvey_rest s r .due
    refine ⟨s.pauseExpired r, State.next_event reset ?_, schedules.rest, schedules.portsKept, schedules.quiet.radio,
      fun unready => ?_, fun mode normal parallel ready => ?_⟩
    · unfold State.ownPauseExpired
      rw [waiting]
      rfl
    · exact (State.surveyTest_unready (s := s.setSurvey r .due) unready).trans due
    · have key := State.surveyTest_ready (s := s.setSurvey r .due) due ((congrArg Scheduler.mode rest : _).trans mode)
        normal parallel ready
      rwa [(congrArg Scheduler.operatePreload rest : _), (congrArg Scheduler.operate rest : _)] at key
  · have schedules : Schedules NoneEnds s s.sharedPauseExpired := s.sharedPauseExpired_schedules
    have states := s.discardPauses_surveyOf
    refine ⟨s.sharedPauseExpired, State.next_event reset ?_, schedules.rest, schedules.portsKept, schedules.quiet.radio,
      ?_, fun r p => ?_, fun first hfirst mode critical alternate both => ?_⟩
    · unfold State.sharedExpired
      rw [shared]
      rfl
    · rcases State.surveyTest_shared (s.mapSurvey Scheduler.discardPauses) with h | h
      · exact h
      · exact h
    · exact surveyTest_not_waiting (fun p => by rw [states]; exact wake_not_waiting _ p) p
    · have due (r : Radio) : (s.mapSurvey Scheduler.discardPauses).surveyOf r = .due := by
        obtain ⟨-, p, waiting⟩ := both r
        rw [states, waiting]
        rfl
      have wanted (r : Radio) : (s.mapSurvey Scheduler.discardPauses).surveyWanted r = true := by
        refine surveyWanted_iff.2 ⟨.inl ?_, due r, (both r).1⟩
        exact (effMode_eq _).trans ((if_neg fun h => critical h.1).trans mode)
      have arrangement : (s.mapSurvey Scheduler.discardPauses).effArrangement = .alternate := by
        have arrangement : s.effArrangement = .alternate := by
          rw [effArrangement_eq]
          rcases alternate with h | h <;> rw [h]
          · rfl
          · split <;> rfl
        exact arrangement
      have test := State.surveyTest_alternate arrangement (by rw [due]; rfl) (by rw [due]; rfl)
      rw [show (s.mapSurvey Scheduler.discardPauses).survey.last = s.survey.last from rfl, ← hfirst, if_pos (wanted _)] at test
      have ordered (q : Radio) := State.orderSurvey_surveyOf (s.mapSurvey Scheduler.discardPauses) first false q
      unfold State.sharedPauseExpired
      rw [test, ordered, ordered, if_pos rfl, if_neg (otherRadio_ne _)]
      exact ⟨rfl, due _⟩

/-! ### SET SURVEY MODE (R74, R75) -/

/-- The survey states and the queues of a state that the mode is set in. -/
def State.withMode (s : State) (m : SurveyMode) : State :=
  s.mapSurvey fun c =>
    if m = .once then
      if (⟨s.mayOwe .A, s.mayOwe .B⟩ : PerRadio Bool) = ⟨false, false⟩ then
        { c with mode := .off, onceDone := true, owed := ⟨s.mayOwe .A, s.mayOwe .B⟩ }
      else { c with mode := .once, onceDone := false, owed := ⟨s.mayOwe .A, s.mayOwe .B⟩ }
    else { c with mode := m, onceDone := false }

theorem State.withMode_eq (s : State) (m : SurveyMode) : (s.withMode m).survey =
    { s.survey with
      mode := if m = .once ∧ s.mayOwe .A = false ∧ s.mayOwe .B = false then .off else m
      onceDone := decide (m = .once ∧ s.mayOwe .A = false ∧ s.mayOwe .B = false)
      owed := if m = .once then ⟨s.mayOwe .A, s.mayOwe .B⟩ else s.survey.owed } := by
  unfold State.withMode State.mapSurvey
  dsimp only
  by_cases once : m = .once <;> cases a : s.mayOwe .A <;> cases b : s.mayOwe .B <;> simp [once]

theorem State.setSurveyMode_eq (s : State) (m : SurveyMode) :
    s.setSurveyMode m = ((s.withMode m).modeChange s.effMode).surveyTest := by
  show (((s.withMode m).modeChange s.effMode).arrangementChange s.effArrangement).surveyTest = _
  have same : ((s.withMode m).modeChange s.effMode).effArrangement = s.effArrangement := by
    have quiet := ((s.withMode m).modeChange_quiet s.effMode).inner.same
    unfold State.effArrangement
    rw [quiet.profile, quiet.supply]
    rfl
  unfold State.arrangementChange
  rw [if_pos same]

theorem SurveyKept.dropNonUrgent (r : Radio) (s : State) (q : Radio) : SurveyKept r s (s.dropNonUrgent q) := by
  unfold State.dropNonUrgent
  split
  · exact SurveyKept.dropSurvey s q
  · exact SurveyKept.refl s

/-- What a change of the pauses alone leaves of the scheduler. -/
structure RoundKept (s t : State) : Prop where
  mode : t.survey.mode = s.survey.mode
  once : t.survey.onceDone = s.survey.onceDone
  owed : t.survey.owed = s.survey.owed

theorem SurveyKept.round {r : Radio} {s t : State} (h : SurveyKept r s t) : RoundKept s t := ⟨h.mode, h.once, h.owed⟩

theorem RoundKept.trans {s t u : State} (h : RoundKept s t) (k : RoundKept t u) : RoundKept s u :=
  ⟨k.mode.trans h.mode, k.once.trans h.once, k.owed.trans h.owed⟩

/-- The queued non-urgent orders of both radios are removed (R75). -/
def State.dropBoth (s : State) : State := (s.dropNonUrgent .A).dropNonUrgent .B

theorem SurveyKept.dropBoth (r : Radio) (s : State) : SurveyKept r s s.dropBoth :=
  (SurveyKept.dropNonUrgent r s .A).trans (SurveyKept.dropNonUrgent r _ .B)

theorem State.modeChange_round (s : State) (m : SurveyMode) : RoundKept s (s.modeChange m) := by
  have drop : RoundKept s s.dropBoth := (SurveyKept.dropBoth .A s).round
  unfold State.modeChange
  dsimp only
  split
  · exact ⟨rfl, rfl, rfl⟩
  · cases s.effMode
    case off => exact drop.trans ⟨rfl, rfl, rfl⟩
    case paused => exact drop.trans ⟨rfl, rfl, rfl⟩
    all_goals exact ⟨rfl, rfl, rfl⟩

/-- The mode, the ONCE-done flag and the owed set stand through a change of the effective mode and the test. -/
theorem State.setSurveyMode_round (s : State) (m : SurveyMode) : RoundKept (s.withMode m) (s.setSurveyMode m) := by
  rw [State.setSurveyMode_eq]
  exact (State.modeChange_round _ _).trans (SurveyKept.surveyTest (r := .A) _).round

/-- The survey state of a radio whose non-urgent order is removed. -/
theorem State.dropNonUrgent_surveyOf (s : State) (r q : Radio) : (s.dropNonUrgent r).surveyOf q =
    if q = r ∧ s.surveyOf r = .ordered false ∧ s.hasOrder r .survey = true then .due else s.surveyOf q := by
  unfold State.dropNonUrgent
  by_cases ordered : s.surveyOf r = .ordered false
  · rw [if_pos (by rw [ordered]; rfl), State.dropSurvey_surveyOf]
    refine if_congr ?_ rfl rfl
    exact ⟨fun h => ⟨h.1, ordered, h.2.1⟩, fun h => ⟨h.1, h.2.2, false, ordered⟩⟩
  · rw [if_neg (by rwa [beq_iff_eq]), if_neg fun h => ordered h.2.1]

theorem State.hasOrder_iff (s : State) (r : Radio) (k : OrderKind) :
    s.hasOrder r k = true ↔ ∃ o ∈ (s.radio r).queue, o.kind = k := by
  unfold State.hasOrder
  simp

theorem State.dropNonUrgent_queue (s : State) (r q : Radio) : ((s.dropNonUrgent r).radio q).queue =
    if q = r ∧ s.surveyOf r = .ordered false then dropKind .survey (s.radio q).queue else (s.radio q).queue := by
  unfold State.dropNonUrgent
  by_cases ordered : s.surveyOf r = .ordered false
  · rw [if_pos (by rw [ordered]; rfl), State.dropSurvey_queue]
    exact if_congr ⟨fun h => ⟨h, ordered⟩, And.left⟩ rfl rfl
  · rw [if_neg (by rwa [beq_iff_eq]), if_neg fun h => ordered h.2]

/-- A radio whose non-urgent order waits in its queue is DUE, with no SURVEY order, once the orders are removed (R75). -/
theorem State.dropBoth_ordered {s : State} {r : Radio} (ordered : s.surveyOf r = .ordered false)
    (has : s.hasOrder r .survey = true) :
    s.dropBoth.surveyOf r = .due ∧ (s.dropBoth.radio r).queue = dropKind .survey (s.radio r).queue := by
  unfold State.dropBoth
  cases r
  · rw [State.dropNonUrgent_surveyOf, if_neg (by simp), State.dropNonUrgent_surveyOf, if_pos ⟨rfl, ordered, has⟩,
      State.dropNonUrgent_queue, if_neg (by simp), State.dropNonUrgent_queue, if_pos ⟨rfl, ordered⟩]
    exact ⟨rfl, rfl⟩
  · have state : (s.dropNonUrgent .A).surveyOf .B = .ordered false := by
      rw [State.dropNonUrgent_surveyOf, if_neg (by simp), ordered]
    have queue : ((s.dropNonUrgent .A).radio .B).queue = (s.radio .B).queue := by
      rw [State.dropNonUrgent_queue, if_neg (by simp)]
    have has' : (s.dropNonUrgent .A).hasOrder .B .survey = true := by
      unfold State.hasOrder
      rw [queue]
      exact has
    rw [State.dropNonUrgent_surveyOf, if_pos ⟨rfl, state, has'⟩, State.dropNonUrgent_queue, if_pos ⟨rfl, state⟩, queue]
    exact ⟨rfl, rfl⟩

/-- Only a radio that is ORDERED with no urgent mark has its order removed. -/
theorem State.dropBoth_other {s : State} {r : Radio} (other : s.surveyOf r ≠ .ordered false) :
    s.dropBoth.surveyOf r = s.surveyOf r := by
  have one (t : State) (q : Radio) (h : t.surveyOf r ≠ .ordered false) : (t.dropNonUrgent q).surveyOf r = t.surveyOf r := by
    rw [State.dropNonUrgent_surveyOf]
    refine if_neg ?_
    rintro ⟨rfl, k, _⟩
    exact h k
  unfold State.dropBoth
  rw [one _ .B (by rw [one _ .A other]; exact other), one _ .A other]

theorem State.modeChange_off {s : State} {m : SurveyMode} (new : s.effMode = .off) (ne : m ≠ .off) :
    s.modeChange m = s.dropBoth.mapSurvey Scheduler.discardPauses := by
  unfold State.modeChange
  rw [new]
  exact if_neg ne.symm

theorem State.modeChange_paused {s : State} {m : SurveyMode} (new : s.effMode = .paused) (ne : m ≠ .paused) :
    s.modeChange m = s.dropBoth.mapSurvey (Scheduler.holdPauses true) := by
  unfold State.modeChange
  rw [new]
  exact if_neg ne.symm

theorem State.modeChange_continuous {s : State} {m : SurveyMode} (new : s.effMode = .continuous) (ne : m ≠ .continuous) :
    s.modeChange m = s.mapSurvey (Scheduler.holdPauses false) := by
  unfold State.modeChange
  rw [new]
  exact if_neg ne.symm

theorem State.modeChange_once {s : State} {m : SurveyMode} (new : s.effMode = .once) (ne : m ≠ .once) :
    s.modeChange m = s.mapSurvey Scheduler.discardPauses := by
  unfold State.modeChange
  rw [new]
  exact if_neg ne.symm

theorem State.modeChange_same {s : State} {m : SurveyMode} (h : s.effMode = m) : s.modeChange m = s := if_pos h

theorem State.holdPauses_surveyOf (s : State) (b : Bool) (r : Radio) :
    (s.mapSurvey (Scheduler.holdPauses b)).surveyOf r = (s.surveyOf r).holdPause b := by cases r <;> rfl

/-- A change of the effective mode leaves an urgent order. -/
theorem State.modeChange_urgent {s : State} {r : Radio} (m : SurveyMode) (urgent : s.surveyOf r = .ordered true) :
    (s.modeChange m).surveyOf r = .ordered true := by
  have dropped : s.dropBoth.surveyOf r = .ordered true := (State.dropBoth_other (by rw [urgent]; simp)).trans urgent
  unfold State.modeChange
  dsimp only
  split
  · exact urgent
  · cases s.effMode
    case off => exact (State.discardPauses_surveyOf s.dropBoth r).trans (by rw [dropped]; rfl)
    case paused => exact (State.holdPauses_surveyOf s.dropBoth true r).trans (by rw [dropped]; rfl)
    case continuous => exact (State.holdPauses_surveyOf s false r).trans (by rw [urgent]; rfl)
    case once => exact (State.discardPauses_surveyOf s r).trans (by rw [urgent]; rfl)

/-- The effective mode follows the set mode, but for PAUSED under CRITICAL (R75). -/
theorem effMode_ne {s : State} {m : SurveyMode} (ne : s.survey.mode ≠ m) (critical : m = .paused → s.supply.condition ≠ .critical) :
    s.effMode ≠ m := by
  rw [effMode_eq]
  split
  · next h => rintro rfl; exact critical rfl h.1
  · exact ne

theorem effMode_set {s : State} (h : s.supply.condition ≠ .critical ∨ s.survey.mode = .off) : s.effMode = s.survey.mode := by
  rw [effMode_eq, if_neg]
  rintro ⟨critical, on⟩
  exact h.elim (· critical) on

theorem State.effMode_modeChange (s : State) (m : SurveyMode) : (s.modeChange m).effMode = s.effMode := by
  unfold State.effMode
  rw [(s.modeChange_round m).mode, (s.modeChange_quiet m).inner.same.supply]

section
variable {s : State} {m : SurveyMode}

/-- A change of the effective mode to OFF or PAUSED leaves the test nothing to order. -/
theorem State.setSurveyMode_still (off : (s.withMode m).effMode = .off ∨ (s.withMode m).effMode = .paused) :
    s.setSurveyMode m = (s.withMode m).modeChange s.effMode := by
  rw [State.setSurveyMode_eq, State.surveyTest_off]
  rwa [State.effMode_modeChange]

theorem State.withMode_surveyOf (r : Radio) : (s.withMode m).surveyOf r = s.surveyOf r := by
  show (s.withMode m).survey.states.get r = _
  rw [State.withMode_eq]
  rfl

theorem State.withMode_shared : (s.withMode m).survey.shared = s.survey.shared := by rw [State.withMode_eq]

theorem State.withMode_effMode (h : s.supply.condition ≠ .critical ∨ (s.withMode m).survey.mode = .off) :
    (s.withMode m).effMode = (s.withMode m).survey.mode := effMode_set h

/-- Under OFF no pause is left and no radio is WAITING (R75). -/
theorem State.setSurveyMode_off (off : (s.withMode m).survey.mode = .off) (change : s.survey.mode ≠ .off) :
    s.setSurveyMode m = (s.withMode m).dropBoth.mapSurvey Scheduler.discardPauses := by
  have mode : (s.withMode m).effMode = .off := (State.withMode_effMode (.inr off)).trans off
  rw [State.setSurveyMode_still (.inl mode), State.modeChange_off mode (effMode_ne change (by simp))]

theorem State.setSurveyMode_paused (paused : (s.withMode m).survey.mode = .paused) (change : s.survey.mode ≠ .paused)
    (critical : s.supply.condition ≠ .critical) :
    s.setSurveyMode m = (s.withMode m).dropBoth.mapSurvey (Scheduler.holdPauses true) := by
  have mode : (s.withMode m).effMode = .paused := (State.withMode_effMode (.inl critical)).trans paused
  rw [State.setSurveyMode_still (.inr mode), State.modeChange_paused mode (effMode_ne change fun _ => critical)]

theorem State.setSurveyMode_once (once : (s.withMode m).survey.mode = .once) (change : s.survey.mode ≠ .once)
    (critical : s.supply.condition ≠ .critical) :
    s.setSurveyMode m = ((s.withMode m).mapSurvey Scheduler.discardPauses).surveyTest := by
  have mode : (s.withMode m).effMode = .once := (State.withMode_effMode (.inl critical)).trans once
  rw [State.setSurveyMode_eq, State.modeChange_once mode (effMode_ne change (by simp))]

theorem State.setSurveyMode_continuous (continuous : (s.withMode m).survey.mode = .continuous)
    (change : s.survey.mode ≠ .continuous) (critical : s.supply.condition ≠ .critical) :
    s.setSurveyMode m = ((s.withMode m).mapSurvey (Scheduler.holdPauses false)).surveyTest := by
  have mode : (s.withMode m).effMode = .continuous := (State.withMode_effMode (.inl critical)).trans continuous
  rw [State.setSurveyMode_eq, State.modeChange_continuous mode (effMode_ne change (by simp))]

theorem State.mayOwe_iff (r : Radio) : s.mayOwe r = true ↔ (s.radio r).state ≠ .off ∧ (s.radio r).state ≠ .fault := by
  unfold State.mayOwe
  cases (s.radio r).state <;> simp

end

/-- A WAITING radio keeps its wait while orders are removed, with the shared pause. -/
theorem State.dropBoth_waiting {s : State} {r : Radio} {p : Option Pause} (waiting : s.surveyOf r = .waiting p) :
    s.dropBoth.surveyOf r = .waiting p ∧ s.dropBoth.survey.shared = s.survey.shared := by
  have kept := (SurveyKept.dropBoth r s).wait (by rw [waiting]; rfl)
  exact ⟨kept.1.trans waiting, kept.2⟩

/-- What SET SURVEY MODE with a defined mode leaves of the pauses and the orders. -/
theorem State.setSurveyMode_pauses (s : State) (m : SurveyMode) :
    ((s.setSurveyMode m).survey.mode = .off → s.survey.mode ≠ .off →
      (s.setSurveyMode m).survey.shared = none ∧ ∀ r p, s.surveyOf r = .waiting p → (s.setSurveyMode m).surveyOf r = .due)
    ∧ ((s.setSurveyMode m).survey.mode = .once → s.survey.mode ≠ .once → s.supply.condition ≠ .critical →
      (s.setSurveyMode m).survey.shared = none ∧ ∀ r p, s.surveyOf r = .waiting p →
        (s.setSurveyMode m).surveyOf r = .due ∨ (s.setSurveyMode m).surveyOf r = .ordered false) := by
  have mode := (s.setSurveyMode_round m).mode
  refine ⟨fun off change => ?_, fun once change critical => ?_⟩
  · rw [mode] at off
    rw [State.setSurveyMode_off off change]
    refine ⟨rfl, fun r p waiting => ?_⟩
    have stays := State.dropBoth_waiting (s := s.withMode m) (r := r) (p := p) (State.withMode_surveyOf r |>.trans waiting)
    rw [State.discardPauses_surveyOf, stays.1]
    rfl
  · rw [mode] at once
    rw [State.setSurveyMode_once once change critical]
    refine ⟨?_, fun r p waiting => ?_⟩
    · rcases State.surveyTest_shared ((s.withMode m).mapSurvey Scheduler.discardPauses) with h | h <;> exact h
    · have due : ((s.withMode m).mapSurvey Scheduler.discardPauses).surveyOf r = .due := by
        rw [State.discardPauses_surveyOf, State.withMode_surveyOf, waiting]
        rfl
      rcases State.surveyTest_surveyOf ((s.withMode m).mapSurvey Scheduler.discardPauses) r with h | h
      · exact .inl (h.trans due)
      · exact .inr h.2

theorem State.setSurveyMode_removes (s : State) (m : SurveyMode)
    (stops : ((s.setSurveyMode m).survey.mode = .off ∧ s.survey.mode ≠ .off)
      ∨ ((s.setSurveyMode m).survey.mode = .paused ∧ s.survey.mode ≠ .paused ∧ s.supply.condition ≠ .critical))
    {r : Radio} (ordered : s.surveyOf r = .ordered false) (has : s.hasOrder r .survey = true) :
    (s.setSurveyMode m).surveyOf r = .due ∧ ∀ o ∈ ((s.setSurveyMode m).radio r).queue, o.kind ≠ .survey := by
  rw [(s.setSurveyMode_round m).mode] at stops
  have dropped := State.dropBoth_ordered (s := s.withMode m) (r := r) ((State.withMode_surveyOf r).trans ordered) has
  have gone : ∀ o ∈ ((s.withMode m).dropBoth.radio r).queue, o.kind ≠ .survey := by
    rw [dropped.2]
    exact fun o ho => (mem_dropKind.1 ho).2
  rcases stops with ⟨off, change⟩ | ⟨paused, change, critical⟩
  · rw [State.setSurveyMode_off off change]
    exact ⟨(State.discardPauses_surveyOf _ r).trans (by rw [dropped.1]; rfl), gone⟩
  · rw [State.setSurveyMode_paused paused change critical]
    exact ⟨(State.holdPauses_surveyOf _ _ r).trans (by rw [dropped.1]; rfl), gone⟩

/-- Every pause is held, or counts again. -/
def State.PausesHeld (s t : State) (hold : Bool) : Prop :=
  (∀ r p, s.surveyOf r = .waiting p → t.surveyOf r = .waiting (p.map fun x => { x with held := hold }))
  ∧ ((∃ r p, s.surveyOf r = .waiting p) → t.survey.shared = s.survey.shared.map fun x => { x with held := hold })

theorem State.holdPauses_pausesHeld (s : State) (b : Bool) : s.PausesHeld (s.mapSurvey (Scheduler.holdPauses b)) b :=
  ⟨fun r p waiting => by rw [State.holdPauses_surveyOf, waiting]; rfl, fun _ => rfl⟩

theorem State.PausesHeld.after {s t u : State} {b : Bool} (h : s.PausesHeld t b)
    (kept : ∀ r, (t.surveyOf r).isWaiting = true → u.surveyOf r = t.surveyOf r ∧ u.survey.shared = t.survey.shared) :
    s.PausesHeld u b := by
  have waits {r : Radio} {p : Option Pause} (waiting : s.surveyOf r = .waiting p) : (t.surveyOf r).isWaiting = true := by
    rw [h.1 r p waiting]
    rfl
  exact ⟨fun r p waiting => (kept r (waits waiting)).1.trans (h.1 r p waiting),
    fun ⟨r, p, waiting⟩ => (kept r (waits waiting)).2.trans (h.2 ⟨r, p, waiting⟩)⟩

theorem State.PausesHeld.before {s t u : State} {b : Bool} (h : t.PausesHeld u b)
    (kept : ∀ r p, s.surveyOf r = .waiting p → t.surveyOf r = .waiting p ∧ t.survey.shared = s.survey.shared) :
    s.PausesHeld u b :=
  ⟨fun r p waiting => h.1 r p (kept r p waiting).1,
    fun ⟨r, p, waiting⟩ => by rw [h.2 ⟨r, p, (kept r p waiting).1⟩, (kept r p waiting).2]⟩

theorem State.setSurveyMode_held (s : State) (m : SurveyMode) (hold : Bool) (critical : s.supply.condition ≠ .critical)
    (h : (m = .paused ∧ s.survey.mode ≠ .paused ∧ hold = true) ∨ (m = .continuous ∧ s.survey.mode ≠ .continuous ∧ hold = false)) :
    s.PausesHeld (s.setSurveyMode m) hold := by
  have waits (r : Radio) (p : Option Pause) (waiting : s.surveyOf r = .waiting p) : (s.withMode m).surveyOf r = .waiting p :=
    (State.withMode_surveyOf r).trans waiting
  rcases h with ⟨rfl, change, rfl⟩ | ⟨rfl, change, rfl⟩
  · rw [State.setSurveyMode_paused (by rw [State.withMode_eq]; rfl) change critical]
    refine (State.holdPauses_pausesHeld _ true).before fun r p waiting => ?_
    obtain ⟨state, shared⟩ := State.dropBoth_waiting (waits r p waiting)
    exact ⟨state, shared.trans State.withMode_shared⟩
  · rw [State.setSurveyMode_continuous (by rw [State.withMode_eq]; rfl) change critical]
    refine State.PausesHeld.after (t := (s.withMode .continuous).mapSurvey (Scheduler.holdPauses false)) ?_
      fun r => (SurveyKept.surveyTest _).wait
    exact (State.holdPauses_pausesHeld _ false).before fun r p waiting => ⟨waits r p waiting, State.withMode_shared⟩

/-- Under CONTINUOUS, NORMAL and PARALLEL each radio that is READY and DUE is ordered a survey (R77). -/
theorem State.setSurveyMode_orders {s : State} (normal : s.supply.condition = .normal)
    (parallel : s.profile.arrangement = .parallel) {r : Radio} (ready : (s.radio r).state = .ready)
    (due : s.surveyOf r = .due) : (s.setSurveyMode .continuous).surveyOf r = .ordered false
      ∧ ∃ w, ((s.setSurveyMode .continuous).radio r).queue.getLast? = some (.survey w false) := by
  rw [State.setSurveyMode_eq]
  have round := (s.withMode .continuous).modeChange_round s.effMode
  have quiet := (s.withMode .continuous).modeChange_quiet s.effMode
  have stays : ((s.withMode .continuous).modeChange s.effMode).surveyOf r = .due := by
    have now : (s.withMode .continuous).surveyOf r = .due := (State.withMode_surveyOf r).trans due
    have mode : (s.withMode .continuous).effMode = .continuous :=
      (effMode_set (.inl (by show s.supply.condition ≠ _; rw [normal]; decide))).trans (by rw [State.withMode_eq]; rfl)
    by_cases change : s.effMode = .continuous
    · rw [State.modeChange_same (mode.trans change.symm), now]
    · rw [State.modeChange_continuous mode change, State.holdPauses_surveyOf, now]
      rfl
  obtain ⟨state, queue⟩ := State.surveyTest_ready stays (round.mode.trans (by rw [State.withMode_eq]; rfl))
    ((congrArg SupplyMonitor.condition quiet.inner.same.supply).trans normal)
    ((congrArg Profile.arrangement quiet.inner.same.profile).trans parallel) ((quiet.state r).trans ready)
  exact ⟨state, _, queue⟩

/-- The mode, the ONCE-done flag and the owed set that SET SURVEY MODE writes (R74). -/
theorem State.setSurveyMode_written (s : State) (m : SurveyMode) :
    (m ≠ .once → (s.setSurveyMode m).survey.mode = m ∧ (s.setSurveyMode m).survey.onceDone = false)
    ∧ (m = .once → (∀ r, (s.setSurveyMode m).survey.owed.get r = true ↔ (s.radio r).state ≠ .off ∧ (s.radio r).state ≠ .fault)
      ∧ ((∃ r, (s.setSurveyMode m).survey.owed.get r = true) →
        (s.setSurveyMode m).survey.mode = .once ∧ (s.setSurveyMode m).survey.onceDone = false)
      ∧ ((∀ r, (s.setSurveyMode m).survey.owed.get r = false) →
        (s.setSurveyMode m).survey.mode = .off ∧ (s.setSurveyMode m).survey.onceDone = true)) := by
  have round := s.setSurveyMode_round m
  rw [round.mode, round.once, round.owed, State.withMode_eq]
  refine ⟨fun ne => by simp [ne], ?_⟩
  rintro rfl
  simp only [true_and, if_true]
  have get (r : Radio) : PerRadio.get ⟨s.mayOwe .A, s.mayOwe .B⟩ r = s.mayOwe r := by cases r <;> rfl
  simp only [get]
  refine ⟨fun r => State.mayOwe_iff r, ?_, fun none => by simp [none]⟩
  rintro ⟨r, owes⟩
  have some : ¬ (s.mayOwe .A = false ∧ s.mayOwe .B = false) := by
    rintro ⟨a, b⟩
    cases r
    · rw [owes] at a; cases a
    · rw [owes] at b; cases b
  simp [some]

theorem surveyModeOf_none {n : Nat} (h : 3 < n) : surveyModeOf n = none := by
  unfold surveyModeOf
  split <;> first | rfl | omega

/-- Settles O31, clause by clause, from what SET SURVEY MODE writes and what it does to the pauses and the orders. -/
theorem setSurveyMode : Obligations.SetSurveyMode := by
  intro s mode listens
  refine ⟨fun undefined => State.next_station listens ?_, fun defined => ?_⟩
  · unfold State.modeRequest
    rw [surveyModeOf_none undefined]
    rfl
  obtain ⟨m, hm⟩ : ∃ m, surveyModeOf mode = some m := by
    have : mode = 0 ∨ mode = 1 ∨ mode = 2 ∨ mode = 3 := by omega
    rcases this with rfl | rfl | rfl | rfl <;> exact ⟨_, rfl⟩
  have values : (mode = 0 ↔ m = .off) ∧ (mode = 1 ↔ m = .once) ∧ (mode = 2 ↔ m = .continuous) ∧ (mode = 3 ↔ m = .paused) := by
    have : mode = 0 ∨ mode = 1 ∨ mode = 2 ∨ mode = 3 := by omega
    rcases this with rfl | rfl | rfl | rfl <;> (cases hm; decide)
  obtain ⟨offs, onces, continuouses, pauseds⟩ := values
  let h := s.opened .station
  have schedules : Schedules NoneEnds h (h.setSurveyMode m) := h.setSurveyMode_schedules m
  have same := schedules.quiet.inner.same
  obtain ⟨set, round⟩ := h.setSurveyMode_written m
  obtain ⟨discards, leaves⟩ := h.setSurveyMode_pauses m
  refine ⟨h.setSurveyMode m, State.next_station listens (by unfold State.modeRequest; rw [hm]; rfl), fun e => ?_, fun e => ?_,
    fun e => ?_, fun e => ?_, fun e => ?_, fun r u w x running => ?_, fun r urgent => ?_, discards, leaves,
    fun stops r ordered has => ?_, fun hold critical e => ?_, fun e normal parallel r ready due => ?_,
    schedules.quiet.radio, schedules.quiet.table, schedules.quiet.call, schedules.quiet.journal, same.prefs, same.supply,
    same.profile, same.linkCheck⟩
  · exact offs.1 e ▸ (set (by rw [offs.1 e]; decide)).1
  · exact continuouses.1 e ▸ (set (by rw [continuouses.1 e]; decide)).1
  · exact pauseds.1 e ▸ (set (by rw [pauseds.1 e]; decide)).1
  · exact (set fun k => e (onces.2 k)).2
  · exact round (onces.1 e)
  · have running : h.surveyOf r = .running u w x := (s.opened_surveyOf _ r).trans running
    have ran : (h.surveyOf r).isRunning = true := by rw [running]; rfl
    exact (((schedules.runs r).1 ran).resolve_right fun no => no.1.elim).trans running
  · rw [State.setSurveyMode_eq]
    have stays := State.modeChange_urgent (s := h.withMode m) h.effMode ((State.withMode_surveyOf r).trans urgent)
    refine ((State.surveyTest_surveyOf _ r).resolve_right fun wanted => ?_).trans stays
    rw [surveyWanted_due wanted.1] at stays
    cases stays
  · refine h.setSurveyMode_removes m stops ordered ((State.hasOrder_iff _ _ _).2 ?_)
    obtain ⟨w, u, mem⟩ := has
    exact ⟨_, mem, rfl⟩
  · refine h.setSurveyMode_held m hold critical (e.imp ?_ ?_)
    · exact fun k => ⟨pauseds.1 k.1, k.2⟩
    · exact fun k => ⟨continuouses.1 k.1, k.2⟩
  · rw [continuouses.1 e]
    exact State.setSurveyMode_orders (s := h) normal parallel ready due

end Sys2Proof.Machine
end

section
/-! PROOFS. What a change of a radio's state leaves (R53, R54, R60, R61): `Around`, a change of the table, the queues, the
scheduler and the notices alone, with the entries, the queue and the survey state of the radio. -/

namespace Sys2Proof.Machine

/-! ### What surrounds the radios and the call -/

/-- `t` is `s` but for the table, the order queues, the scheduler and the ports. -/
structure Around (s t : State) : Prop where
  radio : ∀ r, s.radioKept t r
  call : t.call = s.call
  journal : t.journal = s.journal
  prefs : t.prefs = s.prefs
  supply : t.supply = s.supply
  profile : t.profile = s.profile
  linkCheck : t.linkCheck = s.linkCheck
  pending : t.pending = s.pending

namespace Around

variable {s t u : State}

theorem refl (s : State) : Around s s := ⟨fun _ => rfl, rfl, rfl, rfl, rfl, rfl, rfl, rfl⟩

theorem trans (h : Around s t) (k : Around t u) : Around s u where
  radio r := (h.radio r).trans (k.radio r)
  call := k.call.trans h.call
  journal := k.journal.trans h.journal
  prefs := k.prefs.trans h.prefs
  supply := k.supply.trans h.supply
  profile := k.profile.trans h.profile
  linkCheck := k.linkCheck.trans h.linkCheck
  pending := k.pending.trans h.pending

theorem settings (h : Around s t) : s.settingsKept t := ⟨h.prefs, h.supply, h.profile⟩

theorem state (h : Around s t) (r : Radio) : (t.radio r).state = (s.radio r).state :=
  (congrArg RadioContext.state (h.radio r) : _)

end Around

theorem Quiet.around {s t : State} (h : Quiet s t) : Around s t where
  radio := h.radio
  call := h.call
  journal := h.journal
  prefs := h.inner.same.prefs
  supply := h.inner.same.supply
  profile := h.inner.same.profile
  linkCheck := h.inner.same.linkCheck
  pending := h.inner.same.pending

theorem Tables.around {s t : State} (h : Tables s t) : Around s t where
  radio r := by unfold State.radioKept; rw [h.radio]
  call := h.call
  journal := h.journal
  prefs := h.prefs
  supply := h.supply
  profile := h.profile
  linkCheck := h.linkCheck
  pending := (congrArg State.pending h.rest : _)

/-- A context that is another but for its queue. -/
theorem State.radioKept.eq {s t : State} {r : Radio} (h : s.radioKept t r) :
    t.radio r = { s.radio r with queue := (t.radio r).queue } := by
  unfold State.radioKept at h
  rw [← h]

/-! ### A radio's state is set -/

section
variable (s : State) (r q : Radio) (st : RadioState)

theorem State.setRadioState_rest :
    { s.setRadioState r st with table := s.table, radios := s.radios, ports := s.ports } = s := by
  have rest := congrArg (fun x : State => { x with table := s.table, radios := s.radios, ports := s.ports })
    (noteTable_rest s (s.mapRadio r (·.enter st)))
  unfold State.setRadioState
  dsimp only
  split <;> exact rest

theorem State.setRadioState_radio :
    (s.setRadioState r st).radio q = if q = r then (s.radio q).enter st else s.radio q := by
  have radio : (noteTable s (s.mapRadio r (·.enter st))).radio q = (s.mapRadio r (·.enter st)).radio q :=
    State.radio_of_radios (congrArg State.radios (noteTable_rest s (s.mapRadio r (·.enter st))) : _) q
  rw [State.radio_mapRadio] at radio
  unfold State.setRadioState
  dsimp only
  split <;> exact radio

theorem State.setRadioState_self : (s.setRadioState r st).radio r = (s.radio r).enter st := by
  rw [State.setRadioState_radio, if_pos rfl]

theorem State.setRadioState_state : ((s.setRadioState r st).radio r).state = st := by
  rw [State.setRadioState_self]
  rfl

theorem State.setRadioState_other (ne : q ≠ r) : (s.setRadioState r st).radio q = s.radio q := by
  rw [State.setRadioState_radio, if_neg ne]

theorem State.setRadioState_slots : (s.setRadioState r st).table.slots = s.table.slots := by
  have table := (noteTable_quiet s (s.mapRadio r (·.enter st))).table
  unfold State.setRadioState
  dsimp only
  split
  · show (noteTable s (s.mapRadio r (·.enter st))).table.slots = _
    rw [table]
    rfl
  · rw [table]
    rfl

theorem State.setRadioState_entry (i : Nat) : (s.setRadioState r st).entry i = s.entry i := by
  unfold State.entry
  rw [State.setRadioState_slots]

theorem State.setRadioState_relax : (s.setRadioState r st).table.relax = s.table.relax := by
  have table := (noteTable_quiet s (s.mapRadio r (·.enter st))).table
  unfold State.setRadioState
  dsimp only
  split
  · show (noteTable s (s.mapRadio r (·.enter st))).table.relax = _
    rw [table]
    rfl
  · rw [table]
    rfl

theorem State.setRadioState_hold : (s.setRadioState r st).table.silentHold =
    if (s.radio r).state = .silent ∧ st ≠ .silent then s.table.silentHold.set r none else s.table.silentHold := by
  have table := (noteTable_quiet s (s.mapRadio r (·.enter st))).table
  unfold State.setRadioState
  dsimp only
  split
  · show (noteTable s (s.mapRadio r (·.enter st))).table.silentHold.set r none = _
    rw [table]
    rfl
  · rw [table]
    rfl

theorem State.setRadioState_portsKept : s.portsKept (s.setRadioState r st) tableNotice := by
  have ports := (State.portsKept.of_ports (s := s) (t := s.mapRadio r (·.enter st)) rfl tableNotice).trans
    (noteTable_portsKept s (s.mapRadio r (·.enter st)))
  unfold State.setRadioState
  dsimp only
  split
  · exact ports.trans (.of_ports rfl _)
  · exact ports

theorem State.setRadioState_survey : (s.setRadioState r st).survey = s.survey :=
  (congrArg State.survey (s.setRadioState_rest r st) : _)
theorem State.setRadioState_surveyOf : (s.setRadioState r st).surveyOf q = s.surveyOf q :=
  surveyOf_of (s.setRadioState_survey r st) q
theorem State.setRadioState_call : (s.setRadioState r st).call = s.call :=
  (congrArg State.call (s.setRadioState_rest r st) : _)
theorem State.setRadioState_journal : (s.setRadioState r st).journal = s.journal :=
  (congrArg State.journal (s.setRadioState_rest r st) : _)
theorem State.setRadioState_prefs : (s.setRadioState r st).prefs = s.prefs :=
  (congrArg State.prefs (s.setRadioState_rest r st) : _)
theorem State.setRadioState_supply : (s.setRadioState r st).supply = s.supply :=
  (congrArg State.supply (s.setRadioState_rest r st) : _)
theorem State.setRadioState_profile : (s.setRadioState r st).profile = s.profile :=
  (congrArg State.profile (s.setRadioState_rest r st) : _)
theorem State.setRadioState_linkCheck : (s.setRadioState r st).linkCheck = s.linkCheck :=
  (congrArg State.linkCheck (s.setRadioState_rest r st) : _)
theorem State.setRadioState_queue : ((s.setRadioState r st).radio q).queue = (s.radio q).queue := by
  rw [State.setRadioState_radio]
  split <;> rfl

/-- The other radio, once a radio's state has been set and what surrounds them has changed. -/
theorem Around.other {s t : State} {r : Radio} {st : RadioState} (h : Around (s.setRadioState r st) t) :
    s.radioKept t (otherRadio r) := by
  have kept := h.radio (otherRadio r)
  unfold State.radioKept at kept
  rwa [State.setRadioState_other _ _ _ _ (otherRadio_ne r)] at kept

end

theorem PerRadio.set_set {α : Type} (x : PerRadio α) (r : Radio) (v w : α) : (x.set r v).set r w = x.set r w := by
  cases r <;> rfl

/-! ### The entries of a radio (R8, R9, R11) -/

section
variable {s t : State} {r : Radio}

/-- An entry once its radio has entered SILENT, SNOOZE or FAULT. -/
def Entry.heldBy (r : Radio) (e : Entry) : Option Entry := some (if e.radio = r then e.hold else e)

/-- An entry once its radio has entered READY. -/
def Entry.returned (p : Profile) (r : Radio) (e : Entry) : Option Entry :=
  if e.radio = r then
    match e.state with
    | .held _ => (e.unhold p.biases).thresholds p
    | .ranked _ | .lost => some e
  else some e

/-- An entry once its radio has restarted. -/
def Entry.restarted (p : Profile) (r : Radio) (e : Entry) : Option Entry :=
  if e.radio = r then (({ e with pin := false } : Entry).becomeLost p).thresholds p else some e

theorem State.holdEntries_eq (s : State) (r : Radio) : s.holdEntries r = s.mapTable (·.heldBy r) := rfl
theorem State.returnEntries_eq (s : State) (r : Radio) : s.returnEntries r = s.mapTable (·.returned s.profile r) := rfl
theorem State.restartEntries_eq (s : State) (r : Radio) :
    s.restartEntries r = (s.mapTable (·.restarted s.profile r)).setSilentHold r none := rfl

theorem State.holdEntries_tables (s : State) (r : Radio) : Tables s (s.holdEntries r) := s.mapTable_tables _
theorem State.returnEntries_tables (s : State) (r : Radio) : Tables s (s.returnEntries r) := s.mapTable_tables _
theorem State.restartEntries_tables (s : State) (r : Radio) : Tables s (s.restartEntries r) :=
  (s.mapTable_tables _).trans (State.setSilentHold_tables _ _ _)

theorem State.holdEntries_entry (s : State) (r : Radio) (i : Nat) :
    (s.holdEntries r).entry i = (s.entry i).bind (·.heldBy r) := s.mapTable_entry _ i
theorem State.returnEntries_entry (s : State) (r : Radio) (i : Nat) :
    (s.returnEntries r).entry i = (s.entry i).bind (·.returned s.profile r) := s.mapTable_entry _ i
theorem State.restartEntries_entry (s : State) (r : Radio) (i : Nat) :
    (s.restartEntries r).entry i = (s.entry i).bind (·.restarted s.profile r) := s.mapTable_entry _ i

theorem State.holdEntries_timers (s : State) (r : Radio) : (s.holdEntries r).table.silentHold = s.table.silentHold
    ∧ (s.holdEntries r).table.relax = s.table.relax := by
  rw [State.holdEntries_eq, State.mapTable_table]
  exact ⟨rfl, rfl⟩

theorem State.returnEntries_timers (s : State) (r : Radio) : (s.returnEntries r).table.silentHold = s.table.silentHold
    ∧ (s.returnEntries r).table.relax = s.table.relax := by
  rw [State.returnEntries_eq, State.mapTable_table]
  exact ⟨rfl, rfl⟩

theorem State.restartEntries_timers (s : State) (r : Radio) :
    (s.restartEntries r).table.silentHold = s.table.silentHold.set r none
      ∧ (s.restartEntries r).table.relax = s.table.relax := by
  rw [State.restartEntries_eq]
  unfold State.setSilentHold
  dsimp only
  rw [State.mapTable_table]
  exact ⟨rfl, rfl⟩

theorem Entry.hold_ranked {e : Entry} {g : Heard} (h : e.state = .ranked g) : e.hold = { e with state := .held g } := by
  unfold Entry.hold
  rw [h]

theorem Entry.hold_other {e : Entry} (h : ∀ g, e.state ≠ .ranked g) : e.hold = e := by
  unfold Entry.hold
  split
  · next g k => exact absurd k (h g)
  all_goals rfl

theorem entriesHeld_of (h : ∀ i, t.entry i = (s.entry i).bind (·.heldBy r)) : s.entriesHeld t r := by
  refine ⟨fun i free => by rw [h, free]; rfl, fun i e he => ⟨fun g radio ranked => ?_, fun other => ?_⟩⟩
  · rw [h, he]
    show some _ = _
    rw [if_pos radio, Entry.hold_ranked ranked]
  · rw [h, he]
    show some _ = _
    rcases other with other | other
    · rw [if_neg other]
    · rw [Entry.hold_other other, ite_self]

theorem Entry.returned_other {p : Profile} {e : Entry} (h : e.radio ≠ r ∨ ∀ g, e.state ≠ .held g) :
    e.returned p r = some e := by
  unfold Entry.returned
  rcases h with h | h
  · rw [if_neg h]
  · split
    · split
      · next g k => exact absurd k (h g)
      all_goals rfl
    · rfl

theorem Entry.returned_held {p : Profile} {e : Entry} {g : Heard} (radio : e.radio = r) (held : e.state = .held g) :
    e.returned p r = (e.enterRanked p.biases g).thresholds p := by
  unfold Entry.returned
  rw [if_pos radio, held]
  dsimp only
  unfold Entry.unhold
  rw [held]

theorem Entry.enterRanked_eq (b : Biases) (e : Entry) (g : Heard) :
    e.enterRanked b g = { e with state := .ranked g, score := scoreOf b { e with state := .ranked g } } := rfl

theorem entriesReturned_of (h : ∀ i, t.entry i = (s.entry i).bind (·.returned s.profile r)) : s.entriesReturned t r := by
  refine ⟨fun i free => by rw [h, free]; rfl, fun i e he => ⟨fun g radio held young => ?_, fun other => ?_⟩⟩
  · rw [h, he]
    show e.returned _ _ = _
    rw [Entry.returned_held radio held]
    rcases young with pin | ⟨lost, fade⟩
    · exact Entry.thresholds_pinned pin
    · refine Entry.thresholds_young (g := g) rfl (fade.imp_right id) (.inr lost)
  · rw [h, he]
    exact Entry.returned_other other

/-- An unpinned entry that becomes LOST is freed from four times the lost time on (R7). -/
theorem Entry.becomeLost_compared (p : Profile) {e : Entry} (pin : e.pin = false) : (e.becomeLost p).thresholds p =
    if e.age < 4 * (p.lost * 1000) then some { e with state := .lost, age := max e.age (p.lost * 1000) } else none := by
  rw [Entry.thresholds_lost (e := e.becomeLost p) pin rfl]
  refine if_congr ?_ rfl rfl
  show max e.age (p.lost * 1000) < _ ↔ _
  omega

theorem entriesRestarted_of (h : ∀ i, t.entry i = (s.entry i).bind (·.restarted s.profile r)) : s.entriesRestarted t r := by
  refine ⟨fun i free => by rw [h, free]; rfl, fun i e he => ⟨fun other => ?_, fun radio => ?_⟩⟩
  · rw [h, he]
    exact if_neg other
  · rw [h, he]
    exact (if_pos radio).trans (Entry.becomeLost_compared s.profile (e := { e with pin := false }) rfl)

end

/-! ### The call controller is told of a lost radio, or of an entry into READY -/

/-- A handling after which no radio has become READY owes nothing (R69). -/
theorem settle_unready {s t : State} (h : ∀ r, t.radioReady r = true → s.radioReady r = true) : settle s t = t := by
  have none (r : Radio) : becameReady s t r = false := by
    unfold becameReady
    cases now : t.radioReady r
    · exact Bool.and_false _
    · rw [h r now]; rfl
  unfold settle
  simp [none]

theorem settle_same (s : State) : settle s s = s := settle_unready fun _ => id

/-- A radio is lost without an attempt in flight and without a callback part (R114, R146). -/
theorem State.loseRadio_idle {s : State} (attempts : s.call.attempts = []) (part : s.call.part = none) (r : Radio)
    (c : Cause) : s.loseRadio r c = s := by
  unfold State.loseRadio State.handling
  dsimp only
  rw [attempts]
  simp only [List.filter_nil, List.foldl_nil]
  unfold State.losePart
  rw [part]
  exact settle_same s

/-! ### The queue of a radio that is not READY -/

/-- What the removal of a SURVEY order, the arrival of a POWER order and the test of R77 keep, the snooze test keeps. -/
theorem State.snoozeTest_chain {P : State → Prop} (drop : ∀ s r, P s → P (s.dropSurvey r))
    (power : ∀ s r a, P s → P (s.enqueue r (.power a))) (test : ∀ s, P s → P s.surveyTest) (s : State) (b : Bool)
    (h : P s) : P (s.snoozeTest b) := by
  have snooze (t : State) (r : Radio) (k : P t) : P (t.sendSnooze r) := by
    have sent := power _ r .snooze (drop t r k)
    unfold State.sendSnooze
    dsimp only
    split <;> first
      | exact k
      | (split
         · exact test _ sent
         · exact sent)
  have wake (t : State) (r : Radio) (k : P t) : P (t.sendWake r) := power t r .wake k
  have wakes (t : State) (k : P t) : P t.wakeAll := by
    have one (t : State) (r : Radio) (k : P t) : P (t.wakeOne r) := by
      unfold State.wakeOne
      split
      · exact wake t r k
      · exact k
    exact one _ .B (one t .A k)
  unfold State.snoozeTest
  split
  · exact wakes s h
  · split
    · unfold State.lowSnooze
      dsimp only
      repeat' split
      all_goals first | exact snooze s _ h | exact wake s _ h | exact h
    · exact wakes s h
  · split
    · have one (t : State) (r : Radio) (k : P t) : P (t.criticalOne r) := by
        unfold State.criticalOne
        split
        · exact snooze t r k
        · exact k
      exact one _ .B (one s .A h)
    · exact wakes s h

/-- The queue holds no SURVEY order. -/
def State.NoSurveyOrder (s : State) (r : Radio) : Prop := ∀ o ∈ (s.radio r).queue, o.kind ≠ .survey

section
variable {e : Radio → Prop} {s t : State} {r : Radio}

theorem Schedules.noSurveyOrder (h : Schedules e s t) (unready : s.radioReady r = false) (none : s.NoSurveyOrder r) :
    t.NoSurveyOrder r := by
  intro o ho
  rcases h.unready unready with same | dropped
  · rw [same] at ho
    exact none o ho
  · rw [dropped] at ho
    exact (mem_dropKind.1 ho).2

theorem Tends.noSurveyOrder (h : Tends e s t) (unready : s.radioReady r = false) (none : s.NoSurveyOrder r) :
    t.NoSurveyOrder r := by
  induction h with
  | schedules h => exact h.noSurveyOrder unready none
  | trans h _ hq kq => exact kq (by rw [h.quiet.radioReady]; exact unready) (hq unready none)
  | snooze s q _ | wake s q _ =>
    intro o ho
    rw [State.queue_enqueue] at ho
    split at ho
    · next same =>
      rw [List.mem_append, mem_dropKind, List.mem_singleton] at ho
      rcases ho with ho | rfl
      · exact none o (same.1 ▸ ho.1)
      · decide
    · exact none o ho

theorem Schedules.empty (h : Schedules e s t) (unready : s.radioReady r = false) (none : (s.radio r).queue = []) :
    (t.radio r).queue = [] := by
  rcases h.unready unready with same | dropped
  · rw [same, none]
  · rw [dropped, none]
    rfl

/-- A radio that is neither awake nor asleep is sent nothing. -/
theorem Tends.empty (h : Tends e s t) (awake : (s.radio r).state.isAwake = false) (asleep : (s.radio r).state ≠ .snooze)
    (none : (s.radio r).queue = []) : (t.radio r).queue = [] := by
  rcases h.still awake asleep (by rw [none]; simp) with same | dropped
  · rw [same, none]
  · rw [dropped, none]
    rfl

theorem State.radioReady_eq_false (h : (s.radio r).state ≠ .ready) : s.radioReady r = false := by
  unfold State.radioReady
  exact beq_eq_false_iff_ne.2 h

/-- A SURVEY order leaves the queue of a radio that is not READY (R78). -/
theorem State.removeSurvey_none (unready : s.radioReady r = false) : (s.removeSurvey r).NoSurveyOrder r := by
  unfold State.removeSurvey
  split
  · have drop : (s.dropSurvey r).NoSurveyOrder r := by
      intro o ho
      rw [State.dropSurvey_queue, if_pos rfl] at ho
      exact (mem_dropKind.1 ho).2
    refine (State.surveyTest_schedules (e := NoneEnds) _).noSurveyOrder ?_ drop
    rw [(s.dropSurvey_quiet r).radioReady]
    exact unready
  · next has =>
    intro o ho survey
    exact has ((State.hasOrder_iff s r .survey).2 ⟨o, ho, survey⟩)

end

theorem State.emptyQueue_radio (s : State) (r q : Radio) : (s.emptyQueue r).radio q =
    if q = r then { s.radio q with queue := [], take := none } else s.radio q := by
  unfold State.emptyQueue
  rw [State.radio_mapRadio, State.radio_setQueue]
  split <;> rfl

theorem State.emptyQueue_rest (s : State) (r : Radio) : { s.emptyQueue r with radios := s.radios, ports := s.ports } = s := by
  have rest := s.setQueue_rest r []
  exact (congrArg (fun x : State => { x with radios := s.radios, ports := s.ports }) rest : _)

theorem State.emptyQueue_table (s : State) (r : Radio) : (s.emptyQueue r).table = s.table :=
  (congrArg State.table (s.emptyQueue_rest r) : _)

theorem State.emptyQueue_profile (s : State) (r : Radio) : (s.emptyQueue r).profile = s.profile :=
  (congrArg State.profile (s.emptyQueue_rest r) : _)

theorem State.emptyQueue_portsKept (s : State) (r : Radio) : s.portsKept (s.emptyQueue r) orderNotice :=
  (s.setQueue_portsKept r []).trans (.of_ports rfl _)

/-! ### A radio that is DUE and not READY stays DUE -/

section
variable {s : State} {r : Radio}

/-- The radio is not READY and its survey is DUE. -/
def State.Rests (s : State) (r : Radio) : Prop := (s.radio r).state ≠ .ready ∧ s.surveyOf r = .due

theorem State.Rests.of {s t : State} (h : s.Rests r) (quiet : Quiet s t) (due : t.surveyOf r = .due) : t.Rests r :=
  ⟨by rw [quiet.state]; exact h.1, due⟩

theorem State.Rests.surveyTest (h : s.Rests r) : s.surveyTest.Rests r :=
  h.of s.surveyTest_quiet ((State.surveyTest_unready h.1).trans h.2)

theorem State.Rests.dropSurvey (h : s.Rests r) (q : Radio) : (s.dropSurvey q).Rests r := by
  refine h.of (s.dropSurvey_quiet q) ?_
  rw [State.dropSurvey_surveyOf]
  split
  · rfl
  · exact h.2

theorem State.Rests.enqueue (h : s.Rests r) (q : Radio) (o : Order) : (s.enqueue q o).Rests r :=
  h.of (s.enqueue_quiet q o) ((surveyOf_of (enqueue_survey _ _ _) r).trans h.2)

theorem State.Rests.snoozeTest (h : s.Rests r) (b : Bool) : (s.snoozeTest b).Rests r := by
  exact State.snoozeTest_chain (P := fun x => x.Rests r) (fun _ q k => k.dropSurvey q) (fun _ q _ k => k.enqueue q _)
    (fun _ k => k.surveyTest) s b h

theorem State.Rests.modeChange (h : s.Rests r) (m : SurveyMode) : (s.modeChange m).Rests r := by
  refine h.of (s.modeChange_quiet m) ?_
  have dropped : s.dropBoth.surveyOf r = .due := (State.dropBoth_other (by rw [h.2]; simp)).trans h.2
  unfold State.modeChange
  dsimp only
  split
  · exact h.2
  · cases s.effMode
    case off => exact (State.discardPauses_surveyOf s.dropBoth r).trans (by rw [dropped]; rfl)
    case paused => exact (State.holdPauses_surveyOf s.dropBoth true r).trans (by rw [dropped]; rfl)
    case continuous => exact (State.holdPauses_surveyOf s false r).trans (by rw [h.2]; rfl)
    case once => exact (State.discardPauses_surveyOf s r).trans (by rw [h.2]; rfl)

theorem State.arrange_surveyOf (s : State) (a : Arrangement) (r : Radio) :
    (s.mapSurvey (·.arrange a)).surveyOf r
      = (s.surveyOf r).withOwn (match a with | .parallel => s.survey.shared | .alternate => none) := by
  cases a <;> cases r <;> rfl

theorem State.Rests.arrangementChange (h : s.Rests r) (a : Arrangement) : (s.arrangementChange a).Rests r := by
  refine h.of (s.arrangementChange_quiet a) ?_
  unfold State.arrangementChange
  split
  · exact h.2
  · rw [State.arrange_surveyOf, h.2]
    rfl

theorem State.Rests.reform {f : State → State} (h : (f s).Rests r) : (s.reform f).Rests r :=
  ((h.modeChange _).arrangementChange _).surveyTest

theorem State.Rests.leaveOwed (h : s.Rests r) (q : Radio) : (s.leaveOwed q).Rests r := by
  unfold State.leaveOwed
  split
  · dsimp only
    split
    · exact State.Rests.reform ⟨h.1, h.2⟩
    · exact ⟨h.1, h.2⟩
  · exact h

/-- STARTING, FAULT and OFF leave the radio DUE (R78). -/
theorem State.tellScheduler_rests (gone : (s.radio r).state = .starting ∨ (s.radio r).state = .fault) :
    (s.tellScheduler r).Rests r := by
  have due : (s.setSurvey r .due).Rests r := by
    refine ⟨?_, by rw [setSurvey_surveyOf, if_pos rfl]⟩
    show (s.radio r).state ≠ .ready
    rcases gone with h | h <;> rw [h] <;> decide
  unfold State.tellScheduler
  rcases gone with h | h <;> rw [h] <;> exact due.surveyTest

end

/-! ### The round stands through what the scheduler is told of a radio -/

section
variable (s : State) (r : Radio)

theorem RoundKept.refl : RoundKept s s := ⟨rfl, rfl, rfl⟩

theorem RoundKept.setSurvey (v : SurveyState) : RoundKept s (s.setSurvey r v) := by
  have rest := setSurvey_rest s r v
  exact ⟨(congrArg Scheduler.mode rest : _), (congrArg Scheduler.onceDone rest : _), (congrArg Scheduler.owed rest : _)⟩

theorem RoundKept.orderSurvey (u : Bool) : RoundKept s (s.orderSurvey r u) := by
  have kept : SurveyKept (otherRadio r) s (s.orderSurvey r u) := .orderSurvey s r u fun h => by cases r <;> cases h
  exact kept.round

theorem RoundKept.surveyTest : RoundKept s s.surveyTest := (SurveyKept.surveyTest (r := .A) s).round

theorem RoundKept.removeSurvey : RoundKept s (s.removeSurvey r) := by
  unfold State.removeSurvey
  split
  · exact (SurveyKept.dropSurvey (r := r) s r).round.trans (RoundKept.surveyTest _)
  · exact .refl s

theorem RoundKept.urgentTest : RoundKept s (s.urgentTest r) := by
  unfold State.urgentTest
  split
  · exact .orderSurvey s r true
  · exact .refl s

theorem RoundKept.surveyRest : RoundKept s (s.surveyRest r) := by
  have load (b : Bool) : RoundKept s (s.loadedPause b).1 := ⟨rfl, rfl, rfl⟩
  unfold State.surveyRest
  split
  · exact .setSurvey s r .due
  · exact .setSurvey s r .due
  all_goals
    dsimp only
    split
    · exact (load _).trans (.setSurvey _ r _)
    · exact RoundKept.trans (t := (s.loadedPause false).1) (load _) ⟨rfl, rfl, rfl⟩

theorem RoundKept.surveyEndRest : RoundKept s (s.surveyEndRest r) := by
  unfold State.surveyEndRest
  split
  · exact (RoundKept.orderSurvey s r true).trans (.surveyTest _)
  · refine RoundKept.trans ?_ (RoundKept.surveyTest _)
    split <;> first | exact .setSurvey s r .due | exact .surveyRest s r

theorem RoundKept.cutSurvey : RoundKept s (s.cutSurvey r) := by
  unfold State.cutSurvey
  split
  · exact RoundKept.trans (t := s.surveyEndFirst r false) ⟨rfl, rfl, rfl⟩ (.surveyEndRest _ r)
  · exact .refl s

theorem RoundKept.tellScheduler : RoundKept s (s.tellScheduler r) := by
  unfold State.tellScheduler
  split <;> first
    | exact (RoundKept.setSurvey s r .due).trans (.surveyTest _)
    | exact (RoundKept.urgentTest s r).trans (.surveyTest _)
    | exact .refl s
    | exact .removeSurvey s r

theorem RoundKept.emptyQueue : RoundKept s (s.emptyQueue r) := by
  have survey : (s.emptyQueue r).survey = s.survey := (congrArg State.survey (s.emptyQueue_rest r) : _)
  exact ⟨by rw [survey], by rw [survey], by rw [survey]⟩

theorem State.arrangementChange_round (a : Arrangement) : RoundKept s (s.arrangementChange a) := by
  unfold State.arrangementChange
  split
  · exact .refl s
  · cases s.effArrangement <;> exact ⟨rfl, rfl, rfl⟩

theorem RoundKept.setRadioState (st : RadioState) : RoundKept s (s.setRadioState r st) := by
  have survey := s.setRadioState_survey r st
  exact ⟨by rw [survey], by rw [survey], by rw [survey]⟩

theorem RoundKept.snoozeTest (b : Bool) : RoundKept s (s.snoozeTest b) := (SurveyKept.snoozeTest (r := .A) s b).round

end

end Sys2Proof.Machine
end

section
/-! PROOFS. Announcements, faults, silence and its recovery, in states where the call needs none of the radio (R56 to R64). -/

namespace Sys2Proof.Machine

/-! ### The two halves of each event, around what the call controller is told -/

/-- A radio that has fallen silent, before the call controller is told (R62). -/
def State.silenced (s : State) (r : Radio) : State := ((s.setRadioState r .silent).cutSurvey r).removeSurvey r

/-- What silence brings about once the call controller has been told (R8, R10, R62). -/
def State.holdSilent (s : State) (r : Radio) : State :=
  (((s.holdEntries r).setSilentHold r (some 0)).post .radio).snoozeTest false

/-- What a fault brings about once the call controller has been told (R64). -/
def State.clearFault (s : State) (r : Radio) : State :=
  ((((((s.emptyQueue r).cutSurvey r).tellScheduler r).leaveOwed r).holdEntries r).post .radio).snoozeTest false

/-- The counts and the identity of an announcement (R57). -/
def State.announced (s : State) (r : Radio) (gens : List Nat) (identity : Nat) : State :=
  s.mapRadio r fun c =>
    { c with counts := IntakeCounts.zero, generations := some (generationSetOf gens), identity := some identity }

/-- What a restart brings about once the call controller has been told (R11, R57). -/
def State.clearRestart (s : State) (r : Radio) (gens : List Nat) (identity : Nat) : State :=
  ((((((s.emptyQueue r).cutSurvey r).tellScheduler r).joinOwed r).restartEntries r).announced r gens identity).snoozeTest false

theorem State.fallSilent_eq (s : State) (r : Radio) :
    s.fallSilent r = ((s.silenced r).loseRadio r .radioSilent).holdSilent r := rfl

theorem State.enterFault_eq (s : State) (r : Radio) :
    s.enterFault r = ((s.setRadioState r .fault).loseRadio r .radioFault).clearFault r := rfl

theorem State.restartContext_eq (s : State) (r : Radio) (gens : List Nat) (identity : Nat) : s.restartContext r gens identity
    = ((s.setRadioState r .starting).loseRadio r .radioFault).clearRestart r gens identity := rfl

section
variable (s : State) (r : Radio)

/-- What falls silent is a radio that the scheduler leaves alone. -/
theorem State.silenced_schedules : Schedules (EndsOn r) (s.setRadioState r .silent) (s.silenced r) :=
  (State.cutSurvey_schedules _ r (show EndsOn r r from rfl)).trans (State.removeSurvey_schedules _ r)

theorem State.post_portsKept (k : NoticeKind) : s.portsKept (s.post k) fun p j => p = .station ∧ j = k :=
  s.setNotice_portsKept _ _ _ ⟨rfl, rfl⟩

theorem State.post_posted (k : NoticeKind) : ((s.post k).port .station).pending.has k = true := by
  rw [State.port_post, if_pos rfl]
  dsimp only
  rw [NoticeSet.has_put, if_pos rfl]

/-- What the scheduler and the snooze test do leaves the station's notices. -/
theorem Tends.station {e : Radio → Prop} {s t : State} (h : Tends e s t) (k : NoticeKind) :
    (t.port .station).pending.has k = (s.port .station).pending.has k :=
  (h.portsKept .station).2 k fun no => no.1 rfl

/-- The silence, once the call controller has been told, changes what surrounds the radios. -/
theorem State.holdSilent_around : Around s (s.holdSilent r) :=
  (s.holdEntries_tables r).around.trans ((State.setSilentHold_tables _ _ _).around.trans
    ((State.post_quiet _ .radio).around.trans (State.snoozeTest_quiet _ _).around))

theorem State.holdSilent_entry (i : Nat) : (s.holdSilent r).entry i = (s.entry i).bind (·.heldBy r) := by
  have held := s.holdEntries_entry r i
  unfold State.holdSilent
  rw [(State.snoozeTest_quiet _ _).entry, (State.post_quiet _ .radio).entry]
  exact held

theorem State.holdSilent_timers : (s.holdSilent r).table.silentHold = s.table.silentHold.set r (some 0)
    ∧ (s.holdSilent r).table.relax = s.table.relax := by
  obtain ⟨hold, relax⟩ := s.holdEntries_timers r
  unfold State.holdSilent
  rw [(State.snoozeTest_quiet _ _).table, (State.post_quiet _ .radio).table]
  exact ⟨by rw [← hold]; rfl, relax⟩

theorem State.holdSilent_posted : ((s.holdSilent r).port .station).pending.radio = true :=
  (Tends.station (State.snoozeTest_tends (e := NoneEnds) _ false) .radio).trans (State.post_posted _ .radio)

theorem State.holdSilent_runs (q : Radio) : RunsOn False (s.surveyOf q) ((s.holdSilent r).surveyOf q) := by
  have runs := (State.snoozeTest_tends (e := NoneEnds)
    (((s.holdEntries r).setSilentHold r (some 0)).post .radio) false).runs q
  have same : (((s.holdEntries r).setSilentHold r (some 0)).post .radio).surveyOf q = s.surveyOf q :=
    (s.holdEntries_tables r).surveyOf q
  rw [same] at runs
  exact runs

theorem State.holdSilent_mem (q : Radio) {o : Order} (survey : o.kind ≠ .survey) (power : o.kind ≠ .power) :
    o ∈ ((s.holdSilent r).radio q).queue ↔ o ∈ (s.radio q).queue := by
  have mem := (State.snoozeTest_tends (e := NoneEnds)
    (((s.holdEntries r).setSilentHold r (some 0)).post .radio) false).mem q survey power
  have same : (((s.holdEntries r).setSilentHold r (some 0)).post .radio).radio q = s.radio q :=
    (s.holdEntries_tables r).radio q
  rw [same] at mem
  exact mem

theorem State.holdSilent_noSurveyOrder (unready : (s.radio r).state ≠ .ready) (none : s.NoSurveyOrder r) :
    (s.holdSilent r).NoSurveyOrder r := by
  have same : (((s.holdEntries r).setSilentHold r (some 0)).post .radio).radio r = s.radio r :=
    (s.holdEntries_tables r).radio r
  refine (State.snoozeTest_tends (e := NoneEnds) _ false).noSurveyOrder (State.radioReady_eq_false ?_) ?_
  · rw [same]; exact unready
  · unfold State.NoSurveyOrder
    rw [same]
    exact none

end

/-- Settles O41. -/
theorem silenceExpiry : Obligations.SilenceExpiry := by
  intro s r reset
  refine ⟨fun stopped => State.next_event reset (by unfold State.silenceExpired; rw [stopped]; rfl),
    fun running attempts part => ?_⟩
  have schedules := s.silenced_schedules r
  have silenced := schedules.quiet.around
  have call : (s.silenced r).call = s.call := silenced.call.trans (s.setRadioState_call r _)
  have lost : (s.silenced r).loseRadio r .radioSilent = s.silenced r :=
    State.loseRadio_idle (by rw [call]; exact attempts) (by rw [call]; exact part) _ _
  let t := (s.silenced r).holdSilent r
  have around : Around (s.setRadioState r .silent) t := silenced.trans (State.holdSilent_around _ r)
  have state : ((s.silenced r).radio r).state = .silent := (silenced.state r).trans (s.setRadioState_state r _)
  have unready : (s.setRadioState r .silent).radioReady r = false :=
    State.radioReady_eq_false (by rw [State.setRadioState_state]; decide)
  have entry (i : Nat) : (s.silenced r).entry i = s.entry i :=
    (schedules.quiet.entry i).trans (s.setRadioState_entry r _ i)
  obtain ⟨hold, relax⟩ := (s.silenced r).holdSilent_timers r
  have table : (s.silenced r).table.silentHold = s.table.silentHold ∧ (s.silenced r).table.relax = s.table.relax := by
    rw [schedules.quiet.table, State.setRadioState_hold, State.setRadioState_relax, if_neg fun h => h.2 rfl]
    exact ⟨rfl, rfl⟩
  refine ⟨t, State.next_event reset ?_, ?_, ?_, fun o kind => ?_, around.other, ?_, State.holdSilent_posted _ r,
    by rw [← table.1]; exact hold, relax.trans table.2, ?_, around.call.trans (s.setRadioState_call r _),
    around.journal.trans (s.setRadioState_journal r _), around.prefs.trans (s.setRadioState_prefs r _),
    around.supply.trans (s.setRadioState_supply r _), around.profile.trans (s.setRadioState_profile r _),
    around.linkCheck.trans (s.setRadioState_linkCheck r _)⟩
  · unfold State.silenceExpired
    rw [if_pos (Option.isSome_iff_ne_none.2 running), State.fallSilent_eq, lost]
  · have kept := (around.radio r).eq
    rw [State.setRadioState_self] at kept
    exact kept
  · refine State.holdSilent_noSurveyOrder _ r (by rw [state]; decide) (State.removeSurvey_none ?_)
    rw [(State.cutSurvey_quiet _ r).radioReady]
    exact unready
  · have kinds : o.kind ≠ .survey ∧ o.kind ≠ .power := by
      rcases kind with k | k <;> rw [k] <;> exact ⟨by decide, by decide⟩
    rw [State.holdSilent_mem _ r r kinds.1 kinds.2, schedules.mem r kinds.1, State.setRadioState_queue]
  · have stopped : ((s.silenced r).surveyOf r).isRunning = false :=
      (State.removeSurvey_schedules (e := NoneEnds) _ r).stopped (State.cutSurvey_stopped _ r)
    exact (SurveyState.isRunning_eq_false _).1 ((State.holdSilent_runs _ r r).2 stopped)
  · exact entriesHeld_of fun i => by rw [State.holdSilent_entry, entry]

/-! ### Faults (R64) -/

section
variable (s : State) (r : Radio)

/-- What the scheduler does once the queue of a radio in FAULT has been emptied. -/
theorem State.clearFault_schedules : Schedules (EndsOn r) (s.emptyQueue r)
    ((((s.emptyQueue r).cutSurvey r).tellScheduler r).leaveOwed r) :=
  ((State.cutSurvey_schedules _ r (show EndsOn r r from rfl)).trans
    (State.tellScheduler_schedules _ r (.inl (show EndsOn r r from rfl)))).trans (State.leaveOwed_schedules _ r)

/-- What a fault changes once the queue has been emptied. -/
theorem State.clearFault_around : Around (s.emptyQueue r) (s.clearFault r) :=
  (s.clearFault_schedules r).quiet.around.trans ((State.holdEntries_tables _ r).around.trans
    ((State.post_quiet _ .radio).around.trans (State.snoozeTest_quiet _ _).around))

theorem State.clearFault_entry (i : Nat) : (s.clearFault r).entry i = (s.entry i).bind (·.heldBy r) := by
  unfold State.clearFault
  rw [(State.snoozeTest_quiet _ _).entry, (State.post_quiet _ .radio).entry, State.holdEntries_entry,
    (s.clearFault_schedules r).quiet.entry]
  unfold State.entry
  rw [State.emptyQueue_table]

theorem State.clearFault_posted : ((s.clearFault r).port .station).pending.radio = true :=
  (Tends.station (State.snoozeTest_tends (e := NoneEnds) _ false) .radio).trans (State.post_posted _ .radio)

theorem State.clearFault_empty (fault : (s.radio r).state = .fault) : ((s.clearFault r).radio r).queue = [] := by
  have emptied : ((s.emptyQueue r).radio r).queue = [] := by rw [State.emptyQueue_radio, if_pos rfl]
  have state : ((s.emptyQueue r).radio r).state = .fault := by
    rw [State.emptyQueue_radio, if_pos rfl]
    exact fault
  have schedules := s.clearFault_schedules r
  have left := schedules.empty (State.radioReady_eq_false (by rw [state]; decide)) emptied
  have held := (State.holdEntries_tables (((((s.emptyQueue r).cutSurvey r).tellScheduler r).leaveOwed r)) r).radio r
  refine (State.snoozeTest_tends (e := NoneEnds) _ false).empty ?_ ?_ ?_
  · rw [State.radio_post, held, schedules.quiet.state, state]
    rfl
  · rw [State.radio_post, held, schedules.quiet.state, state]
    decide
  · rw [State.radio_post, held]
    exact left

theorem State.clearFault_rests (fault : (s.radio r).state = .fault) : (s.clearFault r).Rests r := by
  have state : (((s.emptyQueue r).cutSurvey r).radio r).state = .fault := by
    rw [(State.cutSurvey_quiet _ r).state, State.emptyQueue_radio, if_pos rfl]
    exact fault
  have told := (State.tellScheduler_rests (.inr state)).leaveOwed r
  have tables := State.holdEntries_tables (((((s.emptyQueue r).cutSurvey r).tellScheduler r).leaveOwed r)) r
  refine State.Rests.snoozeTest ⟨?_, ?_⟩ false
  · rw [State.radio_post, tables.radio]
    exact told.1
  · exact (surveyOf_of ((State.post_survey _ _).trans tables.survey) r).trans told.2

theorem State.leaveOwed_owed {s : State} (r : Radio) (once : s.survey.mode = .once) :
    (s.leaveOwed r).survey.owed.get r = false := by
  unfold State.leaveOwed
  split
  · dsimp only
    split
    · rw [show ∀ x : State, x.roundComplete.survey.owed = x.survey.owed from fun x => ?_]
      · exact PerRadio.get_set_self _ _ _
      · exact ((State.modeChange_round _ _).trans ((State.arrangementChange_round _ _).trans (RoundKept.surveyTest _))).owed
    · exact PerRadio.get_set_self _ _ _
  · next not =>
    cases h : s.survey.owed.get r
    · rfl
    · exact absurd ⟨once, h⟩ not

theorem State.clearFault_owed (once : s.survey.mode = .once) : (s.clearFault r).survey.owed.get r = false := by
  have before := ((RoundKept.emptyQueue s r).trans (RoundKept.cutSurvey _ r)).trans (RoundKept.tellScheduler _ r)
  have left := State.leaveOwed_owed r (before.mode.trans once)
  unfold State.clearFault
  rw [(RoundKept.snoozeTest _ false).owed, State.post_survey, (State.holdEntries_tables _ r).survey]
  exact left

end

/-- What a fault of the radio leaves, with no attempt in flight and no callback part (R64). -/
def State.Faulted (h t : State) (r : Radio) : Prop :=
  t.radio r = { h.radio r with state := .fault, silence := none, start := none, queue := [], take := none }
  ∧ { t.radio (otherRadio r) with queue := (h.radio (otherRadio r)).queue } = h.radio (otherRadio r)
  ∧ (t.port .station).pending.radio = true ∧ t.surveyOf r = .due
  ∧ (h.survey.mode = .once → t.survey.owed.get r = false)
  ∧ h.entriesHeld t r
  ∧ t.call = h.call ∧ t.journal = h.journal ∧ t.prefs = h.prefs ∧ t.supply = h.supply ∧ t.profile = h.profile

theorem State.enterFault_faulted {h : State} (r : Radio) (attempts : h.call.attempts = []) (part : h.call.part = none) :
    h.Faulted (h.enterFault r) r := by
  let x := h.setRadioState r .fault
  have call : x.call = h.call := h.setRadioState_call r _
  have eq : h.enterFault r = x.clearFault r := by
    rw [State.enterFault_eq, State.loseRadio_idle (by rw [call]; exact attempts) (by rw [call]; exact part)]
  have around := x.clearFault_around r
  have rest := x.emptyQueue_rest r
  have state : (x.radio r).state = .fault := h.setRadioState_state r _
  rw [eq]
  refine ⟨?_, ?_, x.clearFault_posted r, (x.clearFault_rests r state).2, fun once => ?_, ?_, ?_, ?_, ?_, ?_, ?_⟩
  · have kept := (around.radio r).eq
    rw [x.clearFault_empty r state, State.emptyQueue_radio, if_pos rfl, State.setRadioState_self] at kept
    exact kept
  · have kept := around.radio (otherRadio r)
    unfold State.radioKept at kept
    rwa [State.emptyQueue_radio, if_neg (otherRadio_ne r), State.setRadioState_other _ _ _ _ (otherRadio_ne r)] at kept
  · exact x.clearFault_owed r ((RoundKept.setRadioState h r _).mode.trans once)
  · exact entriesHeld_of fun i => by rw [State.clearFault_entry, State.setRadioState_entry]
  · exact around.call.trans ((congrArg State.call rest : _).trans call)
  · exact around.journal.trans ((congrArg State.journal rest : _).trans (h.setRadioState_journal r _))
  · exact around.prefs.trans ((congrArg State.prefs rest : _).trans (h.setRadioState_prefs r _))
  · exact around.supply.trans ((congrArg State.supply rest : _).trans (h.setRadioState_supply r _))
  · exact around.profile.trans ((congrArg State.profile rest : _).trans (h.setRadioState_profile r _))

/-! ### Announcements (R57) -/

section
variable (s : State) (r : Radio) (gens : List Nat) (identity : Nat)

/-- What the scheduler does once the queue of a radio that restarts has been emptied. -/
theorem State.clearRestart_schedules : Schedules (EndsOn r) (s.emptyQueue r)
    ((((s.emptyQueue r).cutSurvey r).tellScheduler r).joinOwed r) :=
  ((State.cutSurvey_schedules _ r (show EndsOn r r from rfl)).trans
    (State.tellScheduler_schedules _ r (.inl (show EndsOn r r from rfl)))).trans (State.joinOwed_schedules _ r)

/-- The radios, once the context of one has been announced. -/
theorem State.announced_radio (q : Radio) : (s.announced r gens identity).radio q = if q = r then { s.radio q with
    counts := IntakeCounts.zero, generations := some (generationSetOf gens), identity := some identity } else s.radio q :=
  s.radio_mapRadio r q _

/-- The state of a restart before its last snooze test. -/
def State.restarting (s : State) (r : Radio) : State :=
  ((((s.emptyQueue r).cutSurvey r).tellScheduler r).joinOwed r).restartEntries r

theorem State.restarting_around : Around (s.emptyQueue r) (s.restarting r) :=
  (s.clearRestart_schedules r).quiet.around.trans (State.restartEntries_tables _ r).around

theorem State.restarting_entry (i : Nat) : (s.restarting r).entry i = (s.entry i).bind (·.restarted s.profile r) := by
  have schedules := s.clearRestart_schedules r
  unfold State.restarting
  rw [State.restartEntries_entry, schedules.quiet.entry, schedules.quiet.inner.same.profile]
  unfold State.entry
  rw [State.emptyQueue_table, State.emptyQueue_profile]

theorem State.restarting_timers : (s.restarting r).table.silentHold = s.table.silentHold.set r none
    ∧ (s.restarting r).table.relax = s.table.relax := by
  obtain ⟨hold, relax⟩ :=
    State.restartEntries_timers ((((s.emptyQueue r).cutSurvey r).tellScheduler r).joinOwed r) r
  have same : ((((s.emptyQueue r).cutSurvey r).tellScheduler r).joinOwed r).table = s.table :=
    (s.clearRestart_schedules r).quiet.table.trans (congrArg State.table (s.emptyQueue_rest r) : _)
  rw [same] at hold relax
  exact ⟨hold, relax⟩

theorem State.restarting_portsKept : s.portsKept (s.restarting r) fun p k => tableNotice p k ∨ orderNotice p k :=
  ((s.emptyQueue_portsKept r).mono fun _ _ => .inr).trans
    (((s.clearRestart_schedules r).portsKept.mono fun _ _ => .inr).trans
      ((State.restartEntries_tables _ r).ports.mono fun _ _ => .inl))

theorem State.restarting_empty (starting : (s.radio r).state = .starting) : ((s.restarting r).radio r).queue = [] := by
  have emptied : ((s.emptyQueue r).radio r).queue = [] := by rw [State.emptyQueue_radio, if_pos rfl]
  have state : ((s.emptyQueue r).radio r).state = .starting := by
    rw [State.emptyQueue_radio, if_pos rfl]
    exact starting
  unfold State.restarting
  rw [(State.restartEntries_tables _ r).radio]
  exact (s.clearRestart_schedules r).empty (State.radioReady_eq_false (by rw [state]; decide)) emptied

theorem State.restarting_rests (starting : (s.radio r).state = .starting) : (s.restarting r).Rests r := by
  have state : (((s.emptyQueue r).cutSurvey r).radio r).state = .starting := by
    rw [(State.cutSurvey_quiet _ r).state, State.emptyQueue_radio, if_pos rfl]
    exact starting
  have told := State.tellScheduler_rests (.inl state)
  have joined : ((((s.emptyQueue r).cutSurvey r).tellScheduler r).joinOwed r).Rests r := by
    refine told.of (State.joinOwed_quiet _ r) ?_
    unfold State.joinOwed
    split <;> exact told.2
  have tables := State.restartEntries_tables ((((s.emptyQueue r).cutSurvey r).tellScheduler r).joinOwed r) r
  refine ⟨?_, (tables.surveyOf r).trans joined.2⟩
  unfold State.restarting
  rw [tables.radio]
  exact joined.1

theorem State.restarting_owed (once : s.survey.mode = .once) : (s.restarting r).survey.owed.get r = true := by
  have before := ((RoundKept.emptyQueue s r).trans (RoundKept.cutSurvey _ r)).trans (RoundKept.tellScheduler _ r)
  unfold State.restarting
  rw [(State.restartEntries_tables _ r).survey]
  unfold State.joinOwed
  rw [if_pos (before.mode.trans once)]
  exact PerRadio.get_set_self _ _ _

end

/-- Under NORMAL the snooze test leaves every queue but that of a radio in SNOOZE. -/
theorem State.snoozeTest_normal {s : State} (b : Bool) (normal : s.supply.condition = .normal) : s.snoozeTest b = s.wakeAll := by
  unfold State.snoozeTest
  rw [normal]

theorem State.wakeAll_awake {s : State} {r : Radio} (awake : (s.radio r).state ≠ .snooze) :
    (s.wakeAll).radio r = s.radio r := by
  rw [State.wakeAll_radio, if_neg awake]

/-- What a restart of the radio's context leaves, with no attempt in flight and no callback part (R57). -/
theorem State.restartContext_restarted {h : State} (r : Radio) (gens : List Nat) (identity : Nat)
    (attempts : h.call.attempts = []) (part : h.call.part = none) :
    ∃ t, h.restartContext r gens identity = t
      ∧ t.radio r = ⟨.starting, some (generationSetOf gens), some identity, none, some 0, (t.radio r).queue, none,
        ⟨0, 0, 0, 0, 0⟩⟩
      ∧ (h.supply.condition = .normal → (t.radio r).queue = [])
      ∧ h.radioKept t (otherRadio r)
      ∧ t.surveyOf r = .due ∧ (h.survey.mode = .once → t.survey.owed.get r = true)
      ∧ t.table.silentHold = h.table.silentHold.set r none ∧ t.table.relax = h.table.relax
      ∧ h.entriesRestarted t r
      ∧ h.portsKept t (fun p k => tableNotice p k ∨ orderNotice p k)
      ∧ t.call = h.call ∧ t.journal = h.journal ∧ t.prefs = h.prefs ∧ t.supply = h.supply ∧ t.profile = h.profile
      ∧ t.linkCheck = h.linkCheck := by
  let x := h.setRadioState r .starting
  let y := (x.restarting r).announced r gens identity
  have call : x.call = h.call := h.setRadioState_call r _
  have eq : h.restartContext r gens identity = y.snoozeTest false := by
    rw [State.restartContext_eq, State.loseRadio_idle (by rw [call]; exact attempts) (by rw [call]; exact part)]
    rfl
  have around := x.restarting_around r
  have rest := x.emptyQueue_rest r
  have state : (x.radio r).state = .starting := h.setRadioState_state r _
  have quiet := y.snoozeTest_quiet false
  have mine : y.radio r = { (x.restarting r).radio r with
      counts := IntakeCounts.zero, generations := some (generationSetOf gens), identity := some identity } := by
    rw [State.announced_radio, if_pos rfl]
  have starts : (y.radio r).state = .starting := by
    rw [mine]
    show ((x.restarting r).radio r).state = _
    rw [around.state, State.emptyQueue_radio, if_pos rfl]
    exact state
  obtain ⟨hold, relax⟩ := x.restarting_timers r
  have rests : y.Rests r := by
    refine ⟨by rw [starts]; decide, (x.restarting_rests r state).2⟩
  refine ⟨_, eq, ?_, fun normal => ?_, ?_, (rests.snoozeTest false).2, fun once => ?_, ?_, ?_, ?_, ?_, ?_, ?_, ?_, ?_, ?_, ?_⟩
  · have kept := (quiet.radioKept r).eq
    rw [mine, (around.radio r).eq, State.emptyQueue_radio, if_pos rfl, State.setRadioState_self] at kept
    exact kept
  · rw [State.snoozeTest_normal false, State.wakeAll_awake (by rw [starts]; decide), mine]
    · exact x.restarting_empty r state
    · exact (congrArg SupplyMonitor.condition (around.supply.trans ((congrArg State.supply rest : _).trans
        (h.setRadioState_supply r _))) : _).trans normal
  · have kept := (quiet.radioKept (otherRadio r))
    have other := around.radio (otherRadio r)
    unfold State.radioKept at other kept ⊢
    rw [State.announced_radio, if_neg (otherRadio_ne r)] at kept
    rw [State.emptyQueue_radio, if_neg (otherRadio_ne r), State.setRadioState_other _ _ _ _ (otherRadio_ne r)] at other
    rw [← other, ← kept]
  · rw [(RoundKept.snoozeTest y false).owed]
    exact x.restarting_owed r ((RoundKept.setRadioState h r _).mode.trans once)
  · rw [quiet.table]
    refine (hold : y.table.silentHold = _).trans ?_
    rw [State.setRadioState_hold]
    split
    · exact PerRadio.set_set _ _ _ _
    · rfl
  · rw [quiet.table]
    exact relax.trans (h.setRadioState_relax r _)
  · refine entriesRestarted_of fun i => ?_
    rw [quiet.entry]
    refine (x.restarting_entry r i).trans ?_
    rw [State.setRadioState_entry, State.setRadioState_profile]
  · refine ((h.setRadioState_portsKept r .starting).mono fun _ _ => .inl).trans
      ((x.restarting_portsKept r).trans ((State.portsKept.of_ports rfl _).trans
        ((State.snoozeTest_tends (e := NoneEnds) y false).portsKept.mono fun _ _ => .inr)))
  · exact quiet.call.trans (around.call.trans ((congrArg State.call rest : _).trans call))
  · exact quiet.journal.trans (around.journal.trans ((congrArg State.journal rest : _).trans (h.setRadioState_journal r _)))
  · exact quiet.around.prefs.trans (around.prefs.trans ((congrArg State.prefs rest : _).trans (h.setRadioState_prefs r _)))
  · exact quiet.around.supply.trans (around.supply.trans ((congrArg State.supply rest : _).trans (h.setRadioState_supply r _)))
  · exact quiet.around.profile.trans
      (around.profile.trans ((congrArg State.profile rest : _).trans (h.setRadioState_profile r _)))
  · exact quiet.around.linkCheck.trans
      (around.linkCheck.trans ((congrArg State.linkCheck rest : _).trans (h.setRadioState_linkCheck r _)))

theorem generationSetOf_has {gens : List Nat} (h : ∀ g ∈ gens, 2 ≤ g ∧ g ≤ 5) (g : Nat) :
    (generationSetOf gens).has g = true ↔ g ∈ gens := by
  unfold GenerationSet.has generationSetOf
  split
  case h_5 two three four five =>
    refine ⟨fun no => (Bool.false_ne_true no).elim, fun mem => ?_⟩
    obtain ⟨low, high⟩ := h g mem
    have : g = 2 ∨ g = 3 ∨ g = 4 ∨ g = 5 := by omega
    exact (this.elim two fun h => h.elim three fun h => h.elim four five).elim
  all_goals exact List.contains_iff_mem

theorem announceValid_iff (gens : List Nat) :
    announceValid gens = true ↔ gens ≠ [] ∧ gens.length ≤ 4 ∧ ∀ g ∈ gens, 2 ≤ g ∧ g ≤ 5 := by
  unfold announceValid
  simp [and_assoc, Nat.one_le_iff_ne_zero]

theorem State.exec_announce {s : State} {r : Radio} (listens : s.Listens (.radio r)) (link : s.linkCheck.get r = none)
    (gens : List Nat) (identity : Nat) : exec (.announce (.radio r) gens identity) s
      = .next (((s.opened (.radio r)).announceRequest r gens identity).1.answered (.radio r)
        ((s.opened (.radio r)).announceRequest r gens identity).2) := by
  show Host.Outcome.next (s.period (.radio r) _) = _
  rw [State.period_listens listens]
  unfold State.answer onRadioPort
  dsimp only
  rw [State.opened_linkCheck, link]
  rfl

/-- Settles O39. -/
theorem announce : Obligations.Announce := by
  intro s r gens identity listens link
  have exec := State.exec_announce listens link gens identity
  refine ⟨fun bad => ?_, fun nonempty short range attempts part _ => ?_⟩
  · have invalid : announceValid gens = false := by
      rw [← Bool.not_eq_true, announceValid_iff]
      rintro ⟨nonempty, short, range⟩
      rcases bad with bad | bad | ⟨g, mem, bad⟩
      · exact nonempty bad
      · omega
      · have := range g mem
        omega
    rw [exec]
    unfold State.announceRequest
    rw [invalid]
    rfl
  · have valid : announceValid gens = true := (announceValid_iff gens).2 ⟨nonempty, short, range⟩
    obtain ⟨t, eq, radio, queue, other, survey, owed, hold, relax, entries, ports, rest⟩ :=
      State.restartContext_restarted (h := s.opened (.radio r)) r gens identity (by simpa using attempts)
        (by simpa using part)
    refine ⟨t, generationSetOf gens, ?_, generationSetOf_has range, radio, by simpa using queue, ?_, survey,
      by simpa using owed, by simpa using hold, by simpa using relax, ?_, ports, by simpa using rest⟩
    · rw [exec]
      unfold State.announceRequest
      rw [valid, if_pos rfl, eq]
      rfl
    · unfold State.radioKept at other ⊢
      rwa [State.opened_radio] at other
    · unfold State.entriesRestarted at entries ⊢
      simpa only [State.opened_entry, State.opened_profile] using entries

/-! ### Entries into READY (R9, R54, R58, R63) -/

section
variable {s : State} {r : Radio}

/-- The state of a radio's own entry into READY once the reach table has been told (R9, R54). -/
def State.readied (s : State) (r : Radio) : State := (s.setRadioState r .ready).returnEntries r

theorem State.enterReady_eq (s : State) (r : Radio) : s.enterReady r = ((s.readied r).callEvent r).readyNeighbours r := rfl

theorem State.readied_call (s : State) (r : Radio) : (s.readied r).call = s.call :=
  (State.returnEntries_tables _ r).call.trans (s.setRadioState_call r _)

theorem State.readied_entry (s : State) (r : Radio) (i : Nat) :
    (s.readied r).entry i = (s.entry i).bind (·.returned s.profile r) := by
  unfold State.readied
  rw [State.returnEntries_entry, State.setRadioState_entry, State.setRadioState_profile]

theorem State.readied_radio (s : State) (r q : Radio) :
    (s.readied r).radio q = if q = r then (s.radio q).enter .ready else s.radio q :=
  ((State.returnEntries_tables _ r).radio q).trans (s.setRadioState_radio r q _)

theorem State.readied_timers (s : State) (r : Radio) : (s.readied r).table.silentHold
      = (if (s.radio r).state = .silent then s.table.silentHold.set r none else s.table.silentHold)
    ∧ (s.readied r).table.relax = s.table.relax := by
  obtain ⟨hold, relax⟩ := State.returnEntries_timers (s.setRadioState r .ready) r
  refine ⟨hold.trans ((s.setRadioState_hold r _).trans ?_), relax.trans (s.setRadioState_relax r _)⟩
  simp

theorem State.readied_surveyOf (s : State) (r q : Radio) : (s.readied r).surveyOf q = s.surveyOf q :=
  ((State.returnEntries_tables _ r).surveyOf q).trans (s.setRadioState_surveyOf r q _)

theorem State.readied_survey (s : State) (r : Radio) : (s.readied r).survey = s.survey :=
  (State.returnEntries_tables _ r).survey.trans (s.setRadioState_survey r _)

theorem State.readied_portsKept (s : State) (r : Radio) : s.portsKept (s.readied r) tableNotice :=
  (s.setRadioState_portsKept r _).trans (State.returnEntries_tables _ r).ports

theorem State.readied_around (s : State) (r : Radio) : Around (s.setRadioState r .ready) (s.readied r) :=
  (State.returnEntries_tables _ r).around

theorem State.readyNeighbours_schedules (ready : s.radioReady r = true) :
    Schedules NoneEnds s (s.tellScheduler r) := by
  unfold State.radioReady at ready
  unfold State.tellScheduler
  rw [beq_iff_eq.1 ready]
  exact (State.urgentTest_schedules s r).trans (State.surveyTest_schedules _)

theorem State.readyNeighbours_posted (s : State) (r : Radio) :
    ((s.readyNeighbours r).port .station).pending.radio = true :=
  (Tends.station (State.snoozeTest_tends (e := NoneEnds) _ false) .radio).trans (State.post_posted _ .radio)

theorem State.tellScheduler_portsKept (s : State) (r : Radio) : s.portsKept (s.tellScheduler r) orderNotice :=
  (State.tellScheduler_schedules (e := fun _ => True) s r (.inl trivial)).portsKept

theorem State.readyNeighbours_portsKept (s : State) (r : Radio) :
    s.portsKept (s.readyNeighbours r) fun p k => orderNotice p k ∨ (p = .station ∧ k = .radio) :=
  ((s.tellScheduler_portsKept r).mono fun _ _ => .inl).trans
    (((State.post_portsKept _ .radio).mono fun _ _ => .inr).trans
      ((State.snoozeTest_tends (e := NoneEnds) _ false).portsKept.mono fun _ _ => .inl))

/-- A radio that comes to READY where the call looks for no entry. -/
theorem State.enterReady_deaf (s : State) (r : Radio)
    (deaf : s.call.state ≠ .seeking ∧ s.call.state ≠ .placing ∧ s.call.state ≠ .recovering) :
    s.enterReady r = (s.readied r).readyNeighbours r := by
  rw [State.enterReady_eq, State.callEvent_deaf]
  all_goals rw [State.readied_call]
  · exact deaf.1
  · exact deaf.2.1
  · exact deaf.2.2

/-- What such an entry into READY leaves. -/
theorem State.enterReady_left (s : State) (r : Radio)
    (deaf : s.call.state ≠ .seeking ∧ s.call.state ≠ .placing ∧ s.call.state ≠ .recovering) :
    Around (s.setRadioState r .ready) (s.enterReady r)
    ∧ (∀ i, (s.enterReady r).entry i = (s.entry i).bind (·.returned s.profile r))
    ∧ (s.enterReady r).table.silentHold
        = (if (s.radio r).state = .silent then s.table.silentHold.set r none else s.table.silentHold)
    ∧ (s.enterReady r).table.relax = s.table.relax
    ∧ ((s.enterReady r).port .station).pending.radio = true
    ∧ s.portsKept (s.enterReady r) fun p k => tableNotice p k ∨ orderNotice p k ∨ (p = .station ∧ k = .radio) := by
  rw [s.enterReady_deaf r deaf]
  have quiet := (s.readied r).readyNeighbours_quiet r
  obtain ⟨hold, relax⟩ := s.readied_timers r
  refine ⟨(s.readied_around r).trans quiet.around, fun i => by rw [quiet.entry, State.readied_entry], ?_, ?_,
    State.readyNeighbours_posted _ r, ?_⟩
  · rw [quiet.table]; exact hold
  · rw [quiet.table]; exact relax
  · exact ((s.readied_portsKept r).mono fun _ _ => .inl).trans
      ((State.readyNeighbours_portsKept _ r).mono fun _ _ => .inr)

end

/-! ### Recovery from silence (R56, R63) -/

theorem RadioContext.enter_ready {c : RadioContext} (h : c.state.isWorking = false) :
    c.enter .ready = { c with state := .ready, silence := some 0, start := none } := by
  unfold RadioContext.enter
  rw [h]
  rfl

/-- A restart of a SILENT radio before the scheduler is told. -/
def State.restarted (s : State) (r : Radio) : State := ((s.setRadioState r .starting).emptyQueue r).restartEntries r

theorem State.recoverRestart_eq (s : State) (r : Radio) :
    s.recoverRestart r = ((s.restarted r).tellScheduler r).snoozeTest false := rfl

section
variable (s : State) (r : Radio)

theorem State.restarted_radio (q : Radio) : (s.restarted r).radio q =
    if q = r then { s.radio q with state := .starting, silence := none, start := some 0, queue := [], take := none }
    else s.radio q := by
  unfold State.restarted
  rw [(State.restartEntries_tables _ r).radio, State.emptyQueue_radio, State.setRadioState_radio]
  split <;> rfl

theorem State.restarted_rest :
    { s.restarted r with table := s.table, radios := s.radios, ports := s.ports } = s := by
  have tables := (State.restartEntries_tables ((s.setRadioState r .starting).emptyQueue r) r).rest
  have queue := (s.setRadioState r .starting).emptyQueue_rest r
  have set := s.setRadioState_rest r .starting
  exact (congrArg (fun x : State => { x with table := s.table, radios := s.radios, ports := s.ports }) tables : _).trans
    ((congrArg (fun x : State => { x with table := s.table, radios := s.radios, ports := s.ports }) queue : _).trans set)

theorem State.restarted_entry (i : Nat) : (s.restarted r).entry i = (s.entry i).bind (·.restarted s.profile r) := by
  unfold State.restarted
  rw [State.restartEntries_entry, State.emptyQueue_profile, State.setRadioState_profile]
  unfold State.entry
  rw [State.emptyQueue_table, State.setRadioState_slots]

theorem State.restarted_timers : (s.restarted r).table.silentHold = s.table.silentHold.set r none
    ∧ (s.restarted r).table.relax = s.table.relax := by
  obtain ⟨hold, relax⟩ := State.restartEntries_timers ((s.setRadioState r .starting).emptyQueue r) r
  rw [State.emptyQueue_table] at hold relax
  refine ⟨hold.trans ?_, relax.trans (s.setRadioState_relax r _)⟩
  rw [State.setRadioState_hold]
  split
  · exact PerRadio.set_set _ _ _ _
  · rfl

theorem State.restarted_portsKept : s.portsKept (s.restarted r) fun p k => tableNotice p k ∨ orderNotice p k :=
  ((s.setRadioState_portsKept r .starting).mono fun _ _ => .inl).trans
    (((State.emptyQueue_portsKept _ r).mono fun _ _ => .inr).trans
      ((State.restartEntries_tables _ r).ports.mono fun _ _ => .inl))

end

/-- What a recovery under RESTART leaves (R63). -/
theorem State.recoverRestart_left (s : State) (r : Radio) : ∃ t, s.recoverRestart r = t
    ∧ t.radio r = { s.radio r with
      state := .starting, silence := none, start := some 0, take := none, queue := (t.radio r).queue }
    ∧ (s.supply.condition = .normal → (t.radio r).queue = []) ∧ t.surveyOf r = .due ∧ s.entriesRestarted t r
    ∧ t.call = s.call ∧ t.journal = s.journal ∧ s.settingsKept t ∧ t.linkCheck = s.linkCheck ∧ t.pending = s.pending
    ∧ s.radioKept t (otherRadio r)
    ∧ t.table.silentHold = s.table.silentHold.set r none ∧ t.table.relax = s.table.relax
    ∧ s.portsKept t fun p k => tableNotice p k ∨ orderNotice p k := by
  let y := s.restarted r
  have mine : y.radio r = _ := (s.restarted_radio r r).trans (if_pos rfl)
  have starts : (y.radio r).state = .starting := by rw [mine]
  have rest := s.restarted_rest r
  have told : Schedules (EndsOn r) y (y.tellScheduler r) := State.tellScheduler_schedules y r (.inl (show EndsOn r r from rfl))
  have quiet := told.quiet.trans ((y.tellScheduler r).snoozeTest_quiet false)
  have around := quiet.around
  have tables := s.restarted_timers r
  refine ⟨_, s.recoverRestart_eq r, ?_, fun normal => ?_,
    ((State.tellScheduler_rests (.inl starts)).snoozeTest false).2, ?_, around.call.trans (congrArg State.call rest : _),
    around.journal.trans (congrArg State.journal rest : _), ⟨around.prefs.trans (congrArg State.prefs rest : _),
    around.supply.trans (congrArg State.supply rest : _), around.profile.trans (congrArg State.profile rest : _)⟩,
    around.linkCheck.trans (congrArg State.linkCheck rest : _), around.pending.trans (congrArg State.pending rest : _),
    ?_, ?_, ?_, ?_⟩
  · have kept := (around.radio r).eq
    rw [mine] at kept
    exact kept
  · have normal : (y.tellScheduler r).supply.condition = .normal :=
      (congrArg SupplyMonitor.condition (told.quiet.inner.same.supply.trans (congrArg State.supply rest : _)) : _).trans normal
    rw [State.snoozeTest_normal false normal, State.wakeAll_awake]
    · refine told.empty (State.radioReady_eq_false (by rw [starts]; decide)) ?_
      rw [mine]
    · rw [told.quiet.state, starts]
      decide
  · refine entriesRestarted_of fun i => ?_
    rw [quiet.entry]
    exact s.restarted_entry r i
  · have kept := around.radio (otherRadio r)
    unfold State.radioKept at kept ⊢
    rwa [State.restarted_radio, if_neg (otherRadio_ne r)] at kept
  · rw [quiet.table]; exact tables.1
  · rw [quiet.table]; exact tables.2
  · exact (s.restarted_portsKept r).trans ((told.portsKept.mono fun _ _ => .inr).trans
      ((State.snoozeTest_tends (e := NoneEnds) _ false).portsKept.mono fun _ _ => .inr))

theorem State.heard_working {s : State} {r : Radio} (working : (s.radio r).state = .ready ∨ (s.radio r).state = .surveying
    ∨ (s.radio r).state = .attempting ∨ (s.radio r).state = .inCall) : s.heard r = s.clearSilence r := by
  unfold State.heard
  rcases working with h | h | h | h <;> rw [h]

theorem State.heard_deaf {s : State} {r : Radio} (deaf : (s.radio r).state = .off ∨ (s.radio r).state = .starting
    ∨ (s.radio r).state = .snooze ∨ (s.radio r).state = .fault) : s.heard r = s := by
  unfold State.heard
  rcases deaf with h | h | h | h <;> rw [h]

theorem State.heard_silent {s : State} {r : Radio} (silent : (s.radio r).state = .silent) : s.heard r = s.recover r := by
  unfold State.heard
  rw [silent]

theorem State.clearSilence_radio (s : State) (r q : Radio) :
    (s.clearSilence r).radio q = if q = r then { s.radio q with silence := some 0 } else s.radio q := s.radio_mapRadio r q _

/-- Settles O15. -/
theorem heardAndNoOp : Obligations.HeardAndNoOp := by
  refine ⟨fun s r => ⟨fun working => ?_, fun deaf => State.heard_deaf deaf⟩, fun s t r silent eq looks => ?_,
    fun s h p hands => State.next_hands hands rfl⟩
  · rw [State.heard_working working, State.clearSilence_radio, State.clearSilence_radio, if_pos rfl,
      if_neg (otherRadio_ne r)]
    exact ⟨rfl, rfl, rfl⟩
  · rw [State.heard_silent silent] at eq
    unfold State.recover at eq
    cases mode : s.profile.recovery with
    | resume =>
      rw [mode] at eq
      subst eq
      have deaf := looks.resolve_left (by rw [mode]; decide)
      obtain ⟨around, entries, hold, relax, posted, ports⟩ := s.enterReady_left r deaf
      have set := s.setRadioState_rest r .ready
      refine ⟨around.call.trans (s.setRadioState_call r _), around.journal.trans (s.setRadioState_journal r _),
        ⟨around.prefs.trans (s.setRadioState_prefs r _), around.supply.trans (s.setRadioState_supply r _),
        around.profile.trans (s.setRadioState_profile r _)⟩, around.linkCheck.trans (s.setRadioState_linkCheck r _),
        around.pending.trans (congrArg State.pending set : _), around.other, ?_, relax, ports.mono ?_, fun _ => ⟨?_, posted,
        entriesReturned_of entries⟩, fun no => nomatch no⟩
      · rw [hold, if_pos silent]
      · rintro p k (h | h | h)
        · exact .inl h
        · exact .inr (.inl h)
        · exact .inr (.inr ⟨rfl, h⟩)
      · have kept := (around.radio r).eq
        rw [State.setRadioState_self, RadioContext.enter_ready (by rw [silent]; rfl)] at kept
        exact kept
    | restart =>
      rw [mode] at eq
      obtain ⟨u, hu, radio, queue, survey, entries, call, journal, settings, link, pending, other, hold, relax, ports⟩ :=
        s.recoverRestart_left r
      subst eq hu
      refine ⟨call, journal, settings, link, pending, other, hold, relax, ports.mono ?_, fun no => (nomatch no),
        fun _ => ⟨radio, queue, survey, entries⟩⟩
      rintro p k (h | h)
      · exact .inl h
      · exact .inr (.inl h)

/-! ### MODULE STATUS and the start timer (R58, R60) -/

/-- A radio that does not wait for a pause does not come to wait by the tests of R77 and R158. -/
def State.Unwaiting (s : State) (r : Radio) : Prop := ∀ p, s.surveyOf r ≠ .waiting p

section
variable {s : State} {r : Radio}

theorem State.Unwaiting.surveyTest (h : s.Unwaiting r) : s.surveyTest.Unwaiting r := surveyTest_not_waiting h

theorem State.Unwaiting.dropSurvey (h : s.Unwaiting r) (q : Radio) : (s.dropSurvey q).Unwaiting r := by
  intro p
  rw [State.dropSurvey_surveyOf]
  split
  · simp
  · exact h p

theorem State.Unwaiting.enqueue (h : s.Unwaiting r) (q : Radio) (o : Order) : (s.enqueue q o).Unwaiting r := by
  intro p
  rw [surveyOf_of (enqueue_survey _ _ _)]
  exact h p

theorem State.Unwaiting.snoozeTest (h : s.Unwaiting r) (b : Bool) : (s.snoozeTest b).Unwaiting r :=
  State.snoozeTest_chain (P := fun x => x.Unwaiting r) (fun _ q k => k.dropSurvey q) (fun _ q _ k => k.enqueue q _)
    (fun _ k => k.surveyTest) s b h

theorem State.Unwaiting.urgentTest (h : s.Unwaiting r) (q : Radio) : (s.urgentTest q).Unwaiting r := by
  intro p
  unfold State.urgentTest
  split
  · rw [State.orderSurvey_surveyOf]
    split
    · simp
    · exact h p
  · exact h p

/-- The test of R77 leaves a radio that is DUE where the mode orders nothing (R75). -/
def State.Idles (s : State) (r : Radio) : Prop := (s.effMode = .off ∨ s.effMode = .paused) ∧ s.surveyOf r = .due

theorem effMode_of {s t : State} (mode : t.survey.mode = s.survey.mode) (supply : t.supply = s.supply) :
    t.effMode = s.effMode := by
  unfold State.effMode
  rw [mode, supply]

theorem State.Idles.snoozeTest (h : s.Idles r) (b : Bool) : (s.snoozeTest b).Idles r := by
  refine State.snoozeTest_chain (P := fun x => x.Idles r) (fun x q k => ⟨?_, ?_⟩) (fun x q a k => ⟨?_, ?_⟩)
    (fun x k => by rw [State.surveyTest_off k.1]; exact k) s b h
  · rw [effMode_of (SurveyKept.dropSurvey (r := r) x q).mode (x.dropSurvey_quiet q).inner.same.supply]
    exact k.1
  · rw [State.dropSurvey_surveyOf]
    split
    · rfl
    · exact k.2
  · rw [effMode_of (congrArg Scheduler.mode (enqueue_survey x q _)) (x.enqueue_quiet q _).inner.same.supply]
    exact k.1
  · rw [surveyOf_of (enqueue_survey _ _ _)]
    exact k.2

theorem effMode_still (h : s.survey.mode = .off ∨ s.survey.mode = .paused ∨ s.supply.condition = .critical) :
    s.effMode = .off ∨ s.effMode = .paused := by
  rw [effMode_eq]
  rcases h with h | h | h
  · rw [h, if_neg (by simp)]; exact .inl rfl
  · rw [h]; split <;> exact .inr rfl
  · by_cases off : s.survey.mode = .off
    · rw [off, if_neg (by simp)]; exact .inl rfl
    · rw [if_pos ⟨h, off⟩]; exact .inr rfl

end

theorem State.wakeAll_surveyOf (s : State) (r : Radio) : s.wakeAll.surveyOf r = s.surveyOf r :=
  surveyOf_of s.wakeAll_survey r

/-- A READY radio is told of, where the urgent request does not stand: the tests of R77 and R158 follow. -/
theorem State.readyNeighbours_calm {s : State} {r : Radio} (ready : (s.radio r).state = .ready)
    (calm : s.survey.urgent = false) : s.readyNeighbours r = (s.surveyTest.post .radio).snoozeTest false := by
  unfold State.readyNeighbours State.tellScheduler
  rw [ready]
  unfold State.urgentTest
  rw [calm]
  rfl

/-- The survey state of a radio that is told of as READY (R77, R78). -/
theorem State.readyNeighbours_surveyOf {s : State} {r : Radio} (ready : (s.radio r).state = .ready)
    (due : s.surveyOf r = .due) (calm : s.survey.urgent = false) :
    (s.survey.mode = .off ∨ s.survey.mode = .paused ∨ s.supply.condition = .critical →
      (s.readyNeighbours r).surveyOf r = .due)
    ∧ (s.survey.mode = .continuous → s.supply.condition = .normal → s.profile.arrangement = .parallel →
      (s.readyNeighbours r).surveyOf r = .ordered false) := by
  rw [State.readyNeighbours_calm ready calm]
  refine ⟨fun still => ?_, fun mode normal parallel => ?_⟩
  · have idles : s.Idles r := ⟨effMode_still still, due⟩
    rw [State.surveyTest_off idles.1]
    exact (State.Idles.snoozeTest (s := s.post .radio) ⟨idles.1, due⟩ false).2
  · have normal' : (s.surveyTest.post .radio).supply.condition = .normal := by
      rw [State.post_supply, s.surveyTest_quiet.inner.same.supply]
      exact normal
    rw [State.snoozeTest_normal false normal', State.wakeAll_surveyOf]
    exact (State.surveyTest_ready due mode normal parallel ready).1

theorem State.readyNeighbours_unwaiting {s : State} {r : Radio} (ready : (s.radio r).state = .ready)
    (h : s.Unwaiting r) : (s.readyNeighbours r).Unwaiting r := by
  unfold State.readyNeighbours State.tellScheduler
  rw [ready]
  exact State.Unwaiting.snoozeTest (s := ((s.urgentTest r).surveyTest).post .radio) (h.urgentTest r).surveyTest false

end Sys2Proof.Machine
end

section
/-! PROOFS. What the named operations of the call controller leave: of the call record, the radios but for their queues, the
entries, the journal, the orders and the notices, one equation for each (R66, R69, R87 to R94, R105, R120, R136). -/

namespace Sys2Proof.Machine

/-! ### A radio but for its queue -/

/-- The context of a radio without its queue. -/
def State.core (s : State) (r : Radio) : RadioContext := { s.radio r with queue := [] }

section
variable {s t : State} {r : Radio}

theorem State.radioKept_iff : s.radioKept t r ↔ t.core r = s.core r := by
  unfold State.radioKept State.core
  constructor <;> intro h
  · rw [← h]
  · have : ∀ c d : RadioContext, ({ c with queue := [] } : RadioContext) = { d with queue := [] } →
        { c with queue := d.queue } = d := by
      rintro ⟨⟩ ⟨⟩ h
      cases h
      rfl
    exact this _ _ h

theorem State.core_state (s : State) (r : Radio) : (s.core r).state = (s.radio r).state := rfl
theorem State.core_take (s : State) (r : Radio) : (s.core r).take = (s.radio r).take := rfl

/-- A context is what its core gives, with its queue. -/
theorem State.radio_of_core {c : RadioContext} (h : s.core r = { c with queue := [] }) :
    s.radio r = { c with queue := (s.radio r).queue } := by
  have : ∀ a b : RadioContext, ({ a with queue := [] } : RadioContext) = { b with queue := [] } →
      a = { b with queue := a.queue } := by
    rintro ⟨⟩ ⟨⟩ h
    cases h
    rfl
  exact this _ _ h

theorem Around.core (h : Around s t) (r : Radio) : t.core r = s.core r := State.radioKept_iff.1 (h.radio r)
theorem Quiet.core (h : Quiet s t) (r : Radio) : t.core r = s.core r := h.around.core r
theorem Tables.core (h : Tables s t) (r : Radio) : t.core r = s.core r := h.around.core r

theorem State.core_of_radios (h : t.radios = s.radios) : t.core r = s.core r := by
  unfold State.core
  rw [State.radio_of_radios h]

end

theorem State.setRadioState_core (s : State) (r q : Radio) (st : RadioState) :
    (s.setRadioState r st).core q = if q = r then (s.core q).enter st else s.core q := by
  unfold State.core
  rw [State.setRadioState_radio]
  split <;> rfl

theorem State.core_mapRadio (s : State) (r q : Radio) (f : RadioContext → RadioContext)
    (h : ∀ c, ({ f c with queue := [] } : RadioContext) = f { c with queue := [] } := by intro; rfl) :
    (s.mapRadio r f).core q = if q = r then f (s.core q) else s.core q := by
  unfold State.core
  rw [State.radio_mapRadio]
  split
  · exact h _
  · rfl

/-! ### Notices of the station -/

/-- What is pending at the station stays pending, JOURNAL apart, which follows the journal (R153, R172). -/
def Posts (s t : State) : Prop :=
  ∀ k, k ≠ .journal → (s.port .station).pending.has k = true → (t.port .station).pending.has k = true

section
variable {s t u : State}

theorem Posts.refl (s : State) : Posts s s := fun _ _ => id

theorem Posts.trans (h : Posts s t) (k : Posts t u) : Posts s u := fun j ne now => k j ne (h j ne now)

theorem Posts.of_ports (h : t.ports = s.ports) : Posts s t := by
  intro k _ now
  unfold State.port at *
  rwa [h]

theorem Posts.ite {c : Prop} [Decidable c] (h : c → Posts s t) (k : ¬c → Posts s u) : Posts s (if c then t else u) := by
  split
  · exact h ‹_›
  · exact k ‹_›

theorem Posts.ite_self {c : Prop} [Decidable c] (h : c → Posts s t) : Posts s (if c then t else s) :=
  .ite h fun _ => .refl s

theorem State.post_posts (s : State) (k : NoticeKind) : Posts s (s.post k) := by
  intro j _ now
  rw [State.port_post, if_pos rfl]
  dsimp only
  rw [NoticeSet.has_put]
  split
  · rfl
  · exact now

/-- A change that the ports of the radios alone show. -/
theorem Posts.of_portsKept (h : s.portsKept t orderNotice) : Posts s t := fun k _ now =>
  ((h .station).2 k fun no => no.1 rfl).trans now

theorem Tends.posts {e : Radio → Prop} (h : Tends e s t) : Posts s t := .of_portsKept h.portsKept
theorem Schedules.posts {e : Radio → Prop} (h : Schedules e s t) : Posts s t := .of_portsKept h.portsKept

theorem noteTable_posts (b s : State) : Posts s (noteTable b s) := by
  unfold noteTable
  exact .ite (fun _ => .refl s) fun _ => s.post_posts .table

theorem State.setSlots_posts (s : State) (t : Slots) : Posts s (s.setSlots t) :=
  .trans (t := { s with table := { s.table with slots := t } }) (.of_ports rfl) (noteTable_posts _ _)

theorem State.mapTable_posts (s : State) (f : Entry → Option Entry) : Posts s (s.mapTable f) := s.setSlots_posts _

theorem State.mapSlot_posts (s : State) (i : Nat) (f : Entry → Option Entry) : Posts s (s.mapSlot i f) := by
  unfold State.mapSlot
  split
  · exact s.setSlots_posts _
  · exact .refl s

theorem State.setRadioState_posts (s : State) (r : Radio) (st : RadioState) : Posts s (s.setRadioState r st) := by
  have posts : Posts s (noteTable s (s.mapRadio r (·.enter st))) :=
    .trans (t := s.mapRadio r (·.enter st)) (.of_ports rfl) (noteTable_posts _ _)
  unfold State.setRadioState
  exact .ite (fun _ => posts.trans (.of_ports rfl)) fun _ => posts

theorem State.enqueue_posts (s : State) (r : Radio) (o : Order) : Posts s (s.enqueue r o) :=
  .of_portsKept (s.enqueue_portsKept r o)

theorem State.dropOrders_posts (s : State) (r : Radio) (k : OrderKind) : Posts s (s.dropOrders r k) :=
  .of_portsKept (s.setQueue_portsKept r _)

theorem State.writeRecord_posts (s : State) (x : JournalRecord) : Posts s (s.writeRecord x) := by
  intro k ne now
  unfold State.writeRecord
  rw [testJournal_eq, State.port_setNotice, if_pos rfl]
  dsimp only
  rw [NoticeSet.has_put, if_neg ne]
  exact now

end

/-! ### Orders and surveys, while the radios and the call stand -/

/-- From `s` to `t` the surveys run on, orders of other kinds than SURVEY and POWER are neither queued nor removed, and a
POWER SNOOZE has been sent at most to a radio that may be sent one. -/
structure Stirs (e : Radio → Prop) (s t : State) : Prop where
  runs : ∀ r, RunsOn (e r) (s.surveyOf r) (t.surveyOf r)
  mem : ∀ r o, o.kind ≠ .survey → o.kind ≠ .power → (o ∈ (t.radio r).queue ↔ o ∈ (s.radio r).queue)
  snoozed : ∀ r, .power .snooze ∈ (t.radio r).queue → .power .snooze ∈ (s.radio r).queue ∨ s.MaySnooze r
  call : t.call = s.call
  state : ∀ r, (t.radio r).state = (s.radio r).state

section
variable {e : Radio → Prop} {s t u : State}

theorem Tends.stirs (h : Tends e s t) : Stirs e s t where
  runs := h.runs
  mem r _ survey power := h.mem r survey power
  snoozed _ := h.snoozed
  call := h.quiet.call
  state := h.quiet.state

theorem Schedules.stirs (h : Schedules e s t) : Stirs e s t := (Tends.schedules h).stirs

theorem Stirs.of_same (radios : t.radios = s.radios) (survey : t.survey = s.survey) (call : t.call = s.call) :
    Stirs e s t where
  runs r := by rw [surveyOf_of survey]; exact .refl _ _
  mem r o _ _ := by rw [State.radio_of_radios radios]
  snoozed r now := by rw [State.radio_of_radios radios] at now; exact .inl now
  call := call
  state r := by rw [State.radio_of_radios radios]

theorem Tables.stirs (h : Tables s t) : Stirs e s t := .of_same h.radios h.survey h.call

theorem Stirs.refl (s : State) : Stirs e s s := .of_same rfl rfl rfl

theorem Stirs.trans (h : Stirs e s t) (k : Stirs e t u) : Stirs e s u where
  runs r := (h.runs r).trans (k.runs r)
  mem r o survey power := (k.mem r o survey power).trans (h.mem r o survey power)
  snoozed r now := by
    rcases k.snoozed r now with now | may
    · exact h.snoozed r now
    · refine .inr ?_
      unfold State.MaySnooze State.isHeldRadio State.isOfferingRadio at *
      rwa [h.state, h.call] at may
  call := k.call.trans h.call
  state r := (k.state r).trans (h.state r)

theorem State.post_stirs (s : State) (k : NoticeKind) : Stirs e s (s.post k) :=
  .of_same (State.post_radios _ _) (State.post_survey _ _) (State.post_call _ _)

end

/-! ### The call state and the voice route (R87, R88, R136) -/

section
variable (s : State)

/-- The call record in another state; the start time is absent in IDLE (R87). -/
def CallRecord.inState (c : CallRecord) (st : CallState) : CallRecord :=
  { c with state := st, startTime := if st = .idle then none else c.startTime }

/-- What follows the change of the call state itself (R85, R88, R158). -/
def State.callChanged (s : State) (before st : CallState) : State :=
  let t := s.post .call
  let t := if before = .seeking then t.urgentEnd else t
  let t := if st = .seeking then t.urgentBegin else t
  t.snoozeTest false

theorem State.setCall_eq (st : CallState) : s.setCall st =
    if s.call.state = st then s else (s.mapCall (·.inState st)).callChanged s.call.state st := rfl

theorem State.callChanged_tends (before st : CallState) : Tends NoneEnds (s.post .call) (s.callChanged before st) := by
  unfold State.callChanged
  refine Tends.trans (t := if before = .seeking then (s.post .call).urgentEnd else s.post .call) ?_ (Tends.trans
    (t := if st = .seeking then (if before = .seeking then (s.post .call).urgentEnd else s.post .call).urgentBegin
      else if before = .seeking then (s.post .call).urgentEnd else s.post .call) ?_ (State.snoozeTest_tends _ false))
  · exact .schedules (.ite_self fun _ => State.urgentEnd_schedules _)
  · exact .schedules (.ite_self fun _ => State.urgentBegin_schedules _)

theorem State.callChanged_stirs (before st : CallState) : Stirs NoneEnds s (s.callChanged before st) :=
  (s.post_stirs .call).trans (s.callChanged_tends before st).stirs

theorem State.callChanged_quiet (before st : CallState) : Quiet s (s.callChanged before st) :=
  (s.post_quiet .call).trans (s.callChanged_tends before st).quiet

theorem State.callChanged_after (before st : CallState) : Posts (s.post .call) (s.callChanged before st) :=
  (s.callChanged_tends before st).posts

theorem State.setCall_posts (st : CallState) : Posts s (s.setCall st) := by
  rw [State.setCall_eq]
  exact .ite (fun _ => .refl s) fun _ => .trans (t := s.mapCall (·.inState st)) (.of_ports rfl)
    ((State.post_posts _ .call).trans (State.callChanged_after _ _ _))

/-- CALL is posted at a change of the call state (R88). -/
theorem State.setCall_posted {st : CallState} (ne : s.call.state ≠ st) :
    ((s.setCall st).port .station).pending.call = true := by
  rw [State.setCall_eq, if_neg ne]
  exact State.callChanged_after _ _ _ .call (by decide) (State.post_posted _ .call)

theorem State.setCall_call (st : CallState) :
    (s.setCall st).call = if s.call.state = st then s.call else s.call.inState st := by
  rw [State.setCall_eq]
  split
  · rfl
  · rw [(State.callChanged_quiet _ _ _).call]
    rfl

/-- A change to a state other than IDLE changes the state alone. -/
theorem State.setCall_other {st : CallState} (ne : st ≠ .idle) : (s.setCall st).call = { s.call with state := st } := by
  rw [State.setCall_call]
  split
  · next same => rw [← same]
  · unfold CallRecord.inState
    rw [if_neg ne]

theorem State.setCall_radioQuiet (st : CallState) : (s.setCall st).journal = s.journal ∧ (s.setCall st).table = s.table
    ∧ ∀ r, (s.setCall st).core r = s.core r := by
  rw [State.setCall_eq]
  split
  · exact ⟨rfl, rfl, fun _ => rfl⟩
  · have quiet := State.callChanged_quiet (s.mapCall (·.inState st)) s.call.state st
    exact ⟨quiet.journal, quiet.table, fun r => quiet.core r⟩

theorem State.setCall_journal (st : CallState) : (s.setCall st).journal = s.journal := (s.setCall_radioQuiet st).1
theorem State.setCall_table (st : CallState) : (s.setCall st).table = s.table := (s.setCall_radioQuiet st).2.1
theorem State.setCall_core (st : CallState) (r : Radio) : (s.setCall st).core r = s.core r := (s.setCall_radioQuiet st).2.2 r
theorem State.setCall_entry (st : CallState) (i : Nat) : (s.setCall st).entry i = s.entry i := by
  unfold State.entry
  rw [State.setCall_table]

/-- The orders and the surveys, from the changed call record on. -/
theorem State.setCall_stirs (st : CallState) :
    Stirs NoneEnds (if s.call.state = st then s else s.mapCall (·.inState st)) (s.setCall st) := by
  rw [State.setCall_eq]
  split
  · exact .refl s
  · exact State.callChanged_stirs _ _ _

theorem State.setCall_mem (st : CallState) (r : Radio) {o : Order} (survey : o.kind ≠ .survey) (power : o.kind ≠ .power) :
    o ∈ ((s.setCall st).radio r).queue ↔ o ∈ (s.radio r).queue := by
  have mem := (s.setCall_stirs st).mem r o survey power
  rw [mem]
  split <;> rfl

theorem State.setRoute_call (v : Option Radio) : (s.setRoute v).call = if s.call.route = v then s.call else
    { s.call with route := v, lineA := v == some .A, lineB := v == some .B } := by
  unfold State.setRoute
  split
  · rfl
  · rw [State.post_call]
    rfl

theorem State.setRoute_same (v : Option Radio) : (s.setRoute v).radios = s.radios ∧ (s.setRoute v).table = s.table
    ∧ (s.setRoute v).survey = s.survey ∧ (s.setRoute v).journal = s.journal := by
  unfold State.setRoute
  split <;> simp

theorem State.setRoute_core (v : Option Radio) (r : Radio) : (s.setRoute v).core r = s.core r :=
  State.core_of_radios (s.setRoute_same v).1

theorem State.setRoute_radio (v : Option Radio) (r : Radio) : (s.setRoute v).radio r = s.radio r :=
  State.radio_of_radios (s.setRoute_same v).1 r

theorem State.setRoute_entry (v : Option Radio) (i : Nat) : (s.setRoute v).entry i = s.entry i := by
  unfold State.entry
  rw [(s.setRoute_same v).2.1]

theorem State.setRoute_posts (v : Option Radio) : Posts s (s.setRoute v) := by
  unfold State.setRoute
  exact .ite (fun _ => .refl s) fun _ => .trans (.of_ports rfl) (State.post_posts _ .route)

theorem State.setRoute_posted {v : Option Radio} (ne : s.call.route ≠ v) :
    ((s.setRoute v).port .station).pending.route = true := by
  unfold State.setRoute
  rw [if_neg ne]
  exact State.post_posted _ .route

end

/-! ### Entries of an attempt's target (R13, R14, R36) -/

section
variable (s : State) (i j : Nat)

/-- An entry once it has been unpinned and its age compared (R13). -/
def Entry.unpinned (p : Profile) (e : Entry) : Option Entry :=
  if e.pin then ({ e with pin := false } : Entry).thresholds p else some e

/-- An entry that is excluded for the profile's exclusion time (R14). -/
def Entry.excluded (p : Profile) (e : Entry) : Entry :=
  { e with excludedFor := if p.exclusion * 1000 = 0 then none else some (p.exclusion * 1000) }

/-- An entry whose credit an outcome has changed (R36). -/
def Entry.outcome (b : Biases) (o : OutcomeEvent) (e : Entry) : Entry :=
  if creditChange o = 0 then e else ({ e with credit := addCredit e.credit (creditChange o) } : Entry).rescore b

theorem State.excludeSlot_eq : s.excludeSlot i = s.mapSlot i fun e => some (e.excluded s.profile) := rfl

theorem State.pinSlot_tables : Tables s (s.pinSlot i) := s.mapSlot_tables _ _
theorem State.unpinSlot_tables : Tables s (s.unpinSlot i) := s.mapSlot_tables _ _
theorem State.excludeSlot_tables : Tables s (s.excludeSlot i) := s.mapSlot_tables _ _
theorem State.clearExclusions_tables : Tables s s.clearExclusions := s.mapTable_tables _
theorem State.outcomeEvent_tables (o : OutcomeEvent) : Tables s (s.outcomeEvent i o) := by
  unfold State.outcomeEvent
  split
  · exact .refl s
  · exact s.mapSlot_tables _ _

theorem State.pinSlot_posts : Posts s (s.pinSlot i) := s.mapSlot_posts _ _
theorem State.unpinSlot_posts : Posts s (s.unpinSlot i) := s.mapSlot_posts _ _
theorem State.excludeSlot_posts : Posts s (s.excludeSlot i) := s.mapSlot_posts _ _
theorem State.clearExclusions_posts : Posts s s.clearExclusions := s.mapTable_posts _
theorem State.outcomeEvent_posts (o : OutcomeEvent) : Posts s (s.outcomeEvent i o) := by
  unfold State.outcomeEvent
  exact .ite (fun _ => .refl s) fun _ => s.mapSlot_posts _ _

theorem State.pinSlot_entry : (s.pinSlot i).entry j = if j = i then (s.entry j).map ({ · with pin := true }) else s.entry j := by
  unfold State.pinSlot
  rw [State.mapSlot_entry]
  cases s.entry j <;> rfl

theorem State.unpinSlot_entry :
    (s.unpinSlot i).entry j = if j = i then (s.entry j).bind (·.unpinned s.profile) else s.entry j := s.mapSlot_entry _ _ _

theorem State.excludeSlot_entry :
    (s.excludeSlot i).entry j = if j = i then (s.entry j).map (·.excluded s.profile) else s.entry j := by
  rw [State.excludeSlot_eq, State.mapSlot_entry]
  cases s.entry j <;> rfl

theorem State.outcomeEvent_entry (o : OutcomeEvent) :
    (s.outcomeEvent i o).entry j = if j = i then (s.entry j).map (·.outcome s.profile.biases o) else s.entry j := by
  unfold State.outcomeEvent
  by_cases none : creditChange o = 0
  · rw [if_pos none]
    have same (e : Entry) : e.outcome s.profile.biases o = e := if_pos none
    simp [same]
  · rw [if_neg none, State.mapSlot_entry]
    have changed (e : Entry) : e.outcome s.profile.biases o
        = ({ e with credit := addCredit e.credit (creditChange o) } : Entry).rescore s.profile.biases := if_neg none
    cases s.entry j <;> simp [changed]

theorem State.clearExclusions_entry :
    s.clearExclusions.entry j = (s.entry j).map ({ · with excludedFor := none }) := by
  unfold State.clearExclusions
  rw [State.mapTable_entry]
  cases s.entry j <;> rfl

end

/-! ### Attempts that leave the call (R120) -/

section
variable (s : State) (a : Attempt)

/-- A record joins a journal that is not full (R150). -/
theorem State.writeRecord_journal (x : JournalRecord) (room : s.journal.records.length < 32) :
    (s.writeRecord x).journal = { s.journal with
      records := s.journal.records ++ [{ x with time := s.journal.clock.sec, gap := 0 }] } := by
  unfold State.writeRecord
  rw [testJournal_eq, State.setNotice_journal]
  dsimp only
  unfold journalAppend
  rw [if_pos (show s.journal.records.length < Config.journalSize from room)]
  rfl

theorem State.removeAttempt_call (n : Nat) : (s.removeAttempt n).call =
    { s.call with attempts := s.call.attempts.filter fun a => a.number != n } := rfl

theorem State.closeAttempt_call (o : RecordOutcome) : (s.closeAttempt a o).call =
    { s.call with attempts := s.call.attempts.filter fun x => x.number != a.number } := rfl

theorem State.closeAttempt_core (o : RecordOutcome) (r : Radio) : (s.closeAttempt a o).core r = s.core r := rfl
theorem State.closeAttempt_radio (o : RecordOutcome) (r : Radio) : (s.closeAttempt a o).radio r = s.radio r := rfl
theorem State.closeAttempt_entry (o : RecordOutcome) (i : Nat) : (s.closeAttempt a o).entry i = s.entry i := rfl

theorem State.recordAttempt_posts (o : RecordOutcome) (x : Option EndReason) : Posts s (s.recordAttempt a o x) :=
  s.writeRecord_posts _

theorem State.closeAttempt_posts (o : RecordOutcome) : Posts s (s.closeAttempt a o) :=
  (s.recordAttempt_posts a o none).trans (.of_ports rfl)

/-- The ATTEMPT record that is written now (R120). -/
def State.attemptRecord (s : State) (a : Attempt) (o : RecordOutcome) (x : Option EndReason) : JournalRecord :=
  ⟨.attempt, s.call.number, some a.number, some a.radio, some a.network, some a.generation, some a.cell, some o, x,
    s.since (a.connected.getD a.ordered), s.journal.clock.sec, 0⟩

theorem State.recordAttempt_journal (o : RecordOutcome) (x : Option EndReason) (room : s.journal.records.length < 32) :
    (s.recordAttempt a o x).journal
      = { s.journal with records := s.journal.records ++ [s.attemptRecord a o x] } := s.writeRecord_journal _ room

theorem State.closeAttempt_journal (o : RecordOutcome) (room : s.journal.records.length < 32) :
    (s.closeAttempt a o).journal = { s.journal with records := s.journal.records ++ [s.attemptRecord a o none] } :=
  s.recordAttempt_journal a o none room

/-- The time since a running time, where no wrap lies between and the count does not saturate (R148). -/
theorem State.since_lasted (b : Time) : s.lasted b (s.since b) := by
  intro before clock short
  unfold State.since State.now Config.runningWrap Config.maxMs
  have wrap : s.journal.clock.total + 4294967296 * 1000 - b.total = s.journal.clock.total - b.total + 4294967296 * 1000 :=
    Nat.sub_add_comm before
  simp only [Nat.mod_eq_of_lt (before.trans_lt clock), wrap, Nat.add_mod_right]
  rw [Nat.mod_eq_of_lt ((Nat.sub_le _ _).trans_lt clock), min_eq_right short]

theorem State.attemptRecord_is (o : RecordOutcome) (x : Option EndReason) :
    s.AttemptRecord a o x (a.connected.getD a.ordered) (s.attemptRecord a o x) := ⟨_, s.since_lasted _, rfl⟩

/-- A record is as the call's number and the running time give it. -/
theorem State.attemptRecord_congr {s t : State} (number : t.call.number = s.call.number)
    (clock : t.journal.clock = s.journal.clock) (o : RecordOutcome) (x : Option EndReason) :
    t.attemptRecord a o x = s.attemptRecord a o x := by
  unfold State.attemptRecord State.since State.now
  rw [number, clock]

/-- The take deadline and the ATTEMPT orders of a radio, once an attempt's order has left (R68). -/
theorem State.dropAttemptOrder_core (r q : Radio) (n : Nat) : (s.dropAttemptOrder r n).core q =
    if q = r ∧ s.hasAttemptOrder r n = true then { s.core q with take := none } else s.core q := by
  unfold State.dropAttemptOrder
  by_cases has : s.hasAttemptOrder r n = true
  · rw [if_pos has, State.core_mapRadio _ r q fun c => { c with take := none }, (s.dropOrders_quiet r .attempt).core]
    simp [has]
  · rw [if_neg has, if_neg fun h => has h.2]

theorem State.dropAttemptOrder_queue (r q : Radio) (n : Nat) : ((s.dropAttemptOrder r n).radio q).queue =
    if q = r ∧ s.hasAttemptOrder r n = true then dropKind .attempt (s.radio q).queue else (s.radio q).queue := by
  unfold State.dropAttemptOrder
  by_cases has : s.hasAttemptOrder r n = true
  · rw [if_pos has, State.radio_mapRadio]
    have dropped := s.queue_dropOrders r q .attempt
    by_cases same : q = r
    · rw [if_pos same] at dropped ⊢
      rw [if_pos ⟨same, has⟩]
      exact dropped
    · rw [if_neg same] at dropped ⊢
      rw [if_neg fun h => same h.1]
      exact dropped
  · rw [if_neg has, if_neg fun h => has h.2]

theorem State.dropAttemptOrder_state (r q : Radio) (n : Nat) :
    ((s.dropAttemptOrder r n).radio q).state = (s.radio q).state := by
  have core := congrArg RadioContext.state (s.dropAttemptOrder_core r q n)
  refine core.trans ?_
  split <;> rfl

theorem State.dropAttemptOrder_rest (r : Radio) (n : Nat) :
    { s.dropAttemptOrder r n with radios := s.radios, ports := s.ports } = s := by
  unfold State.dropAttemptOrder
  split
  · exact (congrArg (fun x : State => { x with radios := s.radios, ports := s.ports }) (s.setQueue_rest r _) : _)
  · rfl

theorem State.dropAttemptOrder_call (r : Radio) (n : Nat) : (s.dropAttemptOrder r n).call = s.call :=
  (congrArg State.call (s.dropAttemptOrder_rest r n) : _)
theorem State.dropAttemptOrder_journal (r : Radio) (n : Nat) : (s.dropAttemptOrder r n).journal = s.journal :=
  (congrArg State.journal (s.dropAttemptOrder_rest r n) : _)
theorem State.dropAttemptOrder_survey (r : Radio) (n : Nat) : (s.dropAttemptOrder r n).survey = s.survey :=
  (congrArg State.survey (s.dropAttemptOrder_rest r n) : _)
theorem State.dropAttemptOrder_profile (r : Radio) (n : Nat) : (s.dropAttemptOrder r n).profile = s.profile :=
  (congrArg State.profile (s.dropAttemptOrder_rest r n) : _)
theorem State.dropAttemptOrder_table (r : Radio) (n : Nat) : (s.dropAttemptOrder r n).table = s.table :=
  (congrArg State.table (s.dropAttemptOrder_rest r n) : _)
theorem State.dropAttemptOrder_entry (r : Radio) (n i : Nat) : (s.dropAttemptOrder r n).entry i = s.entry i := by
  unfold State.entry
  rw [State.dropAttemptOrder_table]

theorem State.dropAttemptOrder_posts (r : Radio) (n : Nat) : Posts s (s.dropAttemptOrder r n) := by
  unfold State.dropAttemptOrder
  exact .ite_self fun _ => (s.dropOrders_posts r .attempt).trans (.of_ports rfl)

end

/-! ### The release of a radio (R69) -/

/-- A context that the call controller releases. -/
def RadioContext.released (c : RadioContext) : RadioContext :=
  match c.state with
  | .attempting | .inCall => c.enter .ready
  | .off | .starting | .ready | .surveying | .snooze | .silent | .fault => c

/-- The radio is ATTEMPTING or IN_CALL. -/
def State.Busy (s : State) (r : Radio) : Prop := (s.radio r).state = .attempting ∨ (s.radio r).state = .inCall

section
variable (s : State) (r q : Radio)

theorem State.release_busy {s : State} {r : Radio} (busy : s.Busy r) :
    s.release r = (s.readied r).readyNeighbours r := by
  unfold State.release
  rcases busy with h | h <;> rw [h] <;> rfl

theorem State.release_free {s : State} {r : Radio} (free : ¬ s.Busy r) : s.release r = s := by
  unfold State.release
  unfold State.Busy at free
  cases h : (s.radio r).state <;> first | rfl | simp [h] at free

theorem RadioContext.released_busy {c : RadioContext} (busy : c.state = .attempting ∨ c.state = .inCall) :
    c.released = { c with state := .ready, start := none } := by
  unfold RadioContext.released RadioContext.enter
  rcases busy with h | h <;> rw [h] <;> rfl

theorem RadioContext.released_free {c : RadioContext} (free : ¬ (c.state = .attempting ∨ c.state = .inCall)) :
    c.released = c := by
  unfold RadioContext.released
  cases h : c.state <;> first | rfl | simp [h] at free

theorem State.release_core : (s.release r).core q = if q = r then (s.core q).released else s.core q := by
  by_cases busy : s.Busy r
  · rw [State.release_busy busy, (State.readyNeighbours_quiet _ r).core]
    unfold State.readied
    rw [(State.returnEntries_tables _ r).core, State.setRadioState_core]
    split
    · next same =>
      subst same
      unfold RadioContext.released
      rw [State.core_state]
      rcases busy with h | h <;> rw [h]
    · rfl
  · rw [State.release_free busy]
    split
    · next same =>
      subst same
      exact (RadioContext.released_free (c := s.core q) busy).symm
    · rfl

theorem State.release_call : (s.release r).call = s.call := by
  by_cases busy : s.Busy r
  · rw [State.release_busy busy, (State.readyNeighbours_quiet _ r).call, State.readied_call]
  · rw [State.release_free busy]

theorem State.release_journal : (s.release r).journal = s.journal := by
  by_cases busy : s.Busy r
  · rw [State.release_busy busy, (State.readyNeighbours_quiet _ r).journal, (s.readied_around r).journal,
      State.setRadioState_journal]
  · rw [State.release_free busy]

theorem State.release_posts : Posts s (s.release r) := by
  by_cases busy : s.Busy r
  · rw [State.release_busy busy]
    refine Posts.trans (t := s.readied r) ((s.setRadioState_posts r .ready).trans (State.mapTable_posts _ _)) ?_
    exact (Posts.of_portsKept (State.tellScheduler_portsKept _ r)).trans
      ((State.post_posts _ .radio).trans (State.snoozeTest_tends (e := NoneEnds) _ false).posts)
  · rw [State.release_free busy]
    exact .refl s

theorem State.release_posted {s : State} {r : Radio} (busy : s.Busy r) :
    ((s.release r).port .station).pending.radio = true := by
  rw [State.release_busy busy]
  exact State.readyNeighbours_posted _ r

/-- The orders and the surveys, from the radio's READY state on. -/
theorem State.release_stirs {s : State} {r : Radio} (busy : s.Busy r) :
    Stirs NoneEnds (s.setRadioState r .ready) (s.release r) := by
  rw [State.release_busy busy]
  have ready : (s.readied r).radioReady r = true := by
    unfold State.radioReady
    rw [State.readied_radio, if_pos rfl]
    rfl
  refine (State.returnEntries_tables _ r).stirs.trans ((State.readyNeighbours_schedules ready).stirs.trans ?_)
  exact (State.post_stirs _ .radio).trans (State.snoozeTest_tends _ false).stirs

theorem State.release_mem {o : Order} (survey : o.kind ≠ .survey) (power : o.kind ≠ .power) :
    o ∈ ((s.release r).radio q).queue ↔ o ∈ (s.radio q).queue := by
  by_cases busy : s.Busy r
  · rw [(State.release_stirs busy).mem q o survey power, State.setRadioState_queue]
  · rw [State.release_free busy]

end

end Sys2Proof.Machine
end

section
/-! PROOFS. What the ordering of an attempt leaves (R66, R94, R105, R123), and the choice of the walk as the statements
speak of it (R92, R93). -/

namespace Sys2Proof.Machine

/-! ### The urgent request at a change of the call state (R85) -/

section
variable (s : State)

theorem State.urgentTest_urgent (r : Radio) : (s.urgentTest r).survey.urgent = s.survey.urgent := by
  unfold State.urgentTest
  split
  · exact (SurveyKept.orderSurvey (r := otherRadio r) s r true fun same => absurd same (otherRadio_ne r).symm).urgent
  · rfl

theorem State.dropUrgent_urgent (r : Radio) : (s.dropUrgent r).survey.urgent = s.survey.urgent := by
  unfold State.dropUrgent
  split
  · exact (SurveyKept.dropSurvey (r := r) s r).urgent
  · rfl

theorem State.urgentBegin_urgent : s.urgentBegin.survey.urgent = true := by
  unfold State.urgentBegin
  rw [State.urgentTest_urgent, State.urgentTest_urgent]
  rfl

theorem State.urgentEnd_urgent : s.urgentEnd.survey.urgent = false := by
  unfold State.urgentEnd
  rw [(SurveyKept.surveyTest (r := .A) _).urgent, State.dropUrgent_urgent, State.dropUrgent_urgent]
  rfl

theorem State.setCall_urgentEnd {s : State} {st : CallState} (seeking : s.call.state = .seeking) (ne : st ≠ .seeking) :
    (s.setCall st).survey.urgent = false := by
  rw [State.setCall_eq, if_neg (by rw [seeking]; exact ne.symm)]
  unfold State.callChanged
  rw [(SurveyKept.snoozeTest (r := .A) _ false).urgent, if_neg ne, if_pos seeking, State.urgentEnd_urgent]

theorem State.setCall_urgentBegin {s : State} (ne : s.call.state ≠ .seeking) : (s.setCall .seeking).survey.urgent = true := by
  rw [State.setCall_eq, if_neg ne]
  unfold State.callChanged
  rw [(SurveyKept.snoozeTest (r := .A) _ false).urgent, if_pos rfl, State.urgentBegin_urgent]

end

/-! ### Queueing an ATTEMPT order (R66) -/

section
variable (s : State) (r q : Radio)

/-- A radio that has become ATTEMPTING, with its survey ended and its SURVEY orders removed. -/
def State.preempted (s : State) (r : Radio) : State :=
  (if (s.radio r).state = .surveying then (s.setRadioState r .attempting).cutSurvey r
    else s.setRadioState r .attempting).removeSurvey r

/-- Such a radio with no POWER SNOOZE left and its take deadline at 0. -/
def State.vacated (s : State) (r : Radio) : State :=
  ((s.preempted r).dropSnooze r).mapRadio r fun c => { c with take := some 0 }

theorem State.queueAttempt_eq (o : Order) : s.queueAttempt r o = ((s.vacated r).enqueue r o).snoozeTest true := rfl

theorem State.preempted_schedules : Schedules (EndsOn r) (s.setRadioState r .attempting) (s.preempted r) :=
  .trans (.ite (fun _ => State.cutSurvey_schedules _ r rfl) fun _ => .refl _) (State.removeSurvey_schedules _ r)

theorem State.preempted_core :
    (s.preempted r).core q = if q = r then (s.core q).enter .attempting else s.core q :=
  ((s.preempted_schedules r).quiet.core q).trans (s.setRadioState_core r q _)

theorem State.preempted_state : ((s.preempted r).radio r).state = .attempting :=
  ((s.preempted_schedules r).quiet.state r).trans (s.setRadioState_state r _)

theorem State.preempted_noSurveyOrder : (s.preempted r).NoSurveyOrder r := by
  have cut : Schedules (EndsOn r) (s.setRadioState r .attempting) (if (s.radio r).state = .surveying then
      (s.setRadioState r .attempting).cutSurvey r else s.setRadioState r .attempting) :=
    .ite (fun _ => State.cutSurvey_schedules _ r rfl) fun _ => .refl _
  refine State.removeSurvey_none (State.radioReady_eq_false ?_)
  rw [cut.quiet.state, State.setRadioState_state]
  decide

theorem State.preempted_stopped
    (ends : (s.radio r).state = .surveying ∨ (s.surveyOf r).isRunning = false) :
    ((s.preempted r).surveyOf r).isRunning = false := by
  refine (State.removeSurvey_schedules (e := NoneEnds) _ r).stopped ?_
  split
  · exact State.cutSurvey_stopped _ r
  · next still =>
    rw [State.setRadioState_surveyOf]
    exact ends.resolve_left still

theorem State.dropSnooze_queue : ((s.dropSnooze r).radio q).queue =
    if q = r ∧ s.hasSnooze r = true then dropKind .power (s.radio q).queue else (s.radio q).queue := by
  unfold State.dropSnooze
  by_cases has : s.hasSnooze r = true
  · rw [if_pos has, State.queue_dropOrders]
    simp [has]
  · rw [if_neg has, if_neg fun h => has h.2]

theorem State.dropSnooze_none : .power .snooze ∉ ((s.dropSnooze r).radio r).queue := by
  rw [State.dropSnooze_queue]
  unfold State.hasSnooze
  split
  · exact fun h => (mem_dropKind.1 h).2 rfl
  · next not =>
    intro h
    exact not ⟨rfl, List.contains_iff_mem.2 h⟩

theorem State.dropSnooze_subset {o : Order} (h : o ∈ ((s.dropSnooze r).radio q).queue) : o ∈ (s.radio q).queue := by
  rw [State.dropSnooze_queue] at h
  split at h
  · exact (mem_dropKind.1 h).1
  · exact h

theorem State.dropSnooze_mem {o : Order} (power : o.kind ≠ .power) :
    o ∈ ((s.dropSnooze r).radio q).queue ↔ o ∈ (s.radio q).queue := by
  rw [State.dropSnooze_queue]
  split
  · exact ⟨fun h => (mem_dropKind.1 h).1, fun h => mem_dropKind.2 ⟨h, power⟩⟩
  · rfl

theorem State.dropSnooze_rest : { s.dropSnooze r with radios := s.radios, ports := s.ports } = s := by
  unfold State.dropSnooze
  split
  · exact s.setQueue_rest r _
  · rfl

theorem State.dropSnooze_portsKept : s.portsKept (s.dropSnooze r) orderNotice := by
  unfold State.dropSnooze
  split
  · exact s.setQueue_portsKept r _
  · exact .refl _ _

theorem State.vacated_radio : (s.vacated r).radio q =
    if q = r then { ((s.preempted r).dropSnooze r).radio q with take := some 0 } else ((s.preempted r).dropSnooze r).radio q := by
  unfold State.vacated
  rw [State.radio_mapRadio]

theorem State.vacated_queue : ((s.vacated r).radio q).queue = (((s.preempted r).dropSnooze r).radio q).queue := by
  rw [State.vacated_radio]
  split <;> rfl

theorem State.vacated_state : ((s.vacated r).radio r).state = .attempting := by
  rw [State.vacated_radio, if_pos rfl]
  exact ((State.dropSnooze_quiet _ r).state r).trans (s.preempted_state r)

theorem State.vacated_survey : (s.vacated r).survey = (s.preempted r).survey :=
  (congrArg State.survey (State.dropSnooze_rest (s.preempted r) r) : _)

theorem State.vacated_surveyOf : (s.vacated r).surveyOf q = (s.preempted r).surveyOf q := surveyOf_of (s.vacated_survey r) q

/-- With a call that has begun, the snooze test wakes radios and does no more (R161). -/
theorem State.snoozeTest_begun : s.snoozeTest true = s.wakeAll := by
  unfold State.snoozeTest
  cases s.supply.condition <;> rfl

theorem State.wakeAll_snoozed {r : Radio} (now : .power .snooze ∈ ((s.wakeAll).radio r).queue) :
    .power .snooze ∈ (s.radio r).queue := by
  rw [State.wakeAll_radio] at now
  split at now
  · rw [List.mem_append, mem_dropKind, List.mem_singleton] at now
    exact now.elim And.left fun h => by cases h
  · exact now

/-- A context of an open radio that becomes ATTEMPTING. -/
theorem RadioContext.enter_attempting {c : RadioContext} (h : c.state.isOpen = true) :
    c.enter .attempting = { c with state := .attempting, start := none } := by
  unfold RadioContext.enter
  cases hs : c.state <;> first | rfl | simp [hs, RadioState.isOpen] at h

theorem State.open_iff : s.Open r ↔ s.radioOpen r = true := by
  unfold State.Open State.radioOpen
  cases (s.radio r).state <;> simp [RadioState.isOpen]

end

/-- What queueing an ATTEMPT order to an open radio leaves. -/
structure State.AttemptQueued (s t : State) (r : Radio) (o : Order) : Prop where
  rest : { t with table := s.table, radios := s.radios, survey := s.survey, ports := s.ports } = s
  table : t.table = s.table
  core : ∀ q, t.core q = if q = r then { s.core q with state := .attempting, start := none, take := some 0 } else s.core q
  posts : Posts s t
  order : ∃ l, (t.radio r).queue = l ++ [o] ∧ ∀ x ∈ l, x.kind ≠ .survey ∧ x ≠ .power .snooze
  mem : ∀ q (x : Order), x.kind ≠ .survey → x.kind ≠ .power → x.kind ≠ .attempt ∨ q ≠ r →
    (x ∈ (t.radio q).queue ↔ x ∈ (s.radio q).queue)
  stopped : (s.radio r).state = .surveying ∨ (s.surveyOf r).isRunning = false → (t.surveyOf r).isRunning = false

theorem State.setRadioState_table_open (s : State) (r : Radio) {st : RadioState} (loud : (s.radio r).state ≠ .silent) :
    (s.setRadioState r st).table = s.table := by
  have hold := s.setRadioState_hold r st
  rw [if_neg fun h => loud h.1] at hold
  have slots := s.setRadioState_slots r st
  have relax := s.setRadioState_relax r st
  revert hold slots relax
  generalize (s.setRadioState r st).table = t
  generalize s.table = u
  cases t
  cases u
  rintro rfl rfl rfl
  rfl

theorem State.queueAttempt_queued {s : State} {r : Radio} {o : Order} (opened : s.Open r) (kind : o.kind = .attempt) :
    s.AttemptQueued (s.queueAttempt r o) r o := by
  have pre := s.preempted_schedules r
  have state := s.vacated_state r
  have live : ((s.vacated r).radio r).state ≠ .off ∧ ((s.vacated r).radio r).state ≠ .fault := by rw [state]; decide
  have enq := State.enqueue_quiet (s.vacated r) r o
  have wake := State.wakeAll_tends (e := NoneEnds) ((s.vacated r).enqueue r o)
  have queue (q : Radio) := State.queue_enqueue (s.vacated r) r q o
  have awake : (((s.vacated r).enqueue r o).radio r).state ≠ .snooze := by rw [enq.state, state]; decide
  rw [State.queueAttempt_eq, State.snoozeTest_begun]
  have own : (((s.vacated r).enqueue r o).wakeAll.radio r).queue = dropKind .attempt ((s.vacated r).radio r).queue ++ [o] := by
    rw [State.wakeAll_awake awake, queue, if_pos ⟨rfl, live⟩, kind]
  constructor
  case rest =>
    have h1 := congrArg (fun x : State => { x with table := s.table, radios := s.radios, survey := s.survey, ports := s.ports })
      wake.rest
    have h2 := congrArg (fun x : State => { x with table := s.table, radios := s.radios, survey := s.survey, ports := s.ports })
      (State.enqueue_rest (s.vacated r) r o)
    have h3 := congrArg (fun x : State => { x with table := s.table, radios := s.radios, survey := s.survey, ports := s.ports })
      (State.dropSnooze_rest (s.preempted r) r)
    have h4 := congrArg (fun x : State => { x with table := s.table, radios := s.radios, survey := s.survey, ports := s.ports })
      pre.rest
    have h5 := congrArg (fun x : State => { x with table := s.table, radios := s.radios, survey := s.survey, ports := s.ports })
      (s.setRadioState_rest r .attempting)
    exact h1.trans (h2.trans (h3.trans (h4.trans h5)))
  case table =>
    rw [wake.quiet.table, enq.table]
    show ((s.preempted r).dropSnooze r).table = s.table
    rw [(State.dropSnooze_quiet _ r).table, pre.quiet.table]
    refine s.setRadioState_table_open r ?_
    rcases opened with h | h <;> rw [h] <;> decide
  case core =>
    intro q
    rw [wake.quiet.core, enq.core, State.vacated, State.core_mapRadio _ r q fun c => { c with take := some 0 },
      (State.dropSnooze_quiet _ r).core, State.preempted_core]
    split
    · next same =>
      subst same
      rw [RadioContext.enter_attempting (c := s.core q) ((s.open_iff q).1 opened)]
    · rfl
  case posts =>
    refine Posts.trans ?_ wake.posts
    refine Posts.trans (t := s.vacated r) ?_ (State.enqueue_posts _ _ _)
    refine Posts.trans (t := (s.preempted r).dropSnooze r) ?_ (.of_ports rfl)
    exact ((s.setRadioState_posts r _).trans pre.posts).trans (.of_portsKept (State.dropSnooze_portsKept _ r))
  case order =>
    refine ⟨_, own, fun x hx => ?_⟩
    rw [mem_dropKind, State.vacated_queue] at hx
    refine ⟨s.preempted_noSurveyOrder r x (State.dropSnooze_subset _ r r hx.1), ?_⟩
    rintro rfl
    exact State.dropSnooze_none _ r hx.1
  case mem =>
    intro q x survey power or
    rw [wake.mem q survey power, queue]
    have before : x ∈ ((s.vacated r).radio q).queue ↔ x ∈ (s.radio q).queue := by
      rw [State.vacated_queue, State.dropSnooze_mem _ r q power, pre.mem q survey, State.setRadioState_queue]
    split
    · next same =>
      obtain ⟨rfl, -⟩ := same
      have other := or.resolve_right fun h => h rfl
      rw [List.mem_append, mem_dropKind, List.mem_singleton, kind, ← before]
      exact ⟨fun h => h.elim And.left fun e => absurd (e ▸ kind) other, fun h => .inl ⟨h, other⟩⟩
    · exact before
  case stopped =>
    intro ends
    have second := wake.runs r
    rw [surveyOf_of (enqueue_survey _ _ _), State.vacated_surveyOf] at second
    exact second.2 (s.preempted_stopped r ends)

/-! ### The walk's choice (R92, R93) -/

section
variable (s : State)

theorem State.candidate_iff (i : Nat) (e : Entry) : (i, e) ∈ s.candidates ↔ s.Candidate i e := by
  unfold State.candidates State.Candidate
  rw [List.mem_filter, s.mem_ranked, ← State.Open, s.open_iff]
  simp only [Bool.and_eq_true, Option.isNone_iff_eq_none, List.all_eq_true, bne_iff_ne, ne_eq]
  tauto

/-- The first of the ranked entries that a test takes is the entry of lowest rank among them. -/
theorem State.firstOf_iff {p : Nat → Entry → Prop} {P : Nat × Entry → Bool} (test : ∀ x ∈ s.ranked, (P x = true ↔ p x.1 x.2))
    (mem : ∀ i e, p i e → (i, e) ∈ s.ranked) (i : Nat) (e : Entry) :
    s.ranked.find? P = some (i, e) ↔ s.FirstOf p i e := by
  rw [List.find?_eq_some_iff_getElem]
  unfold State.FirstOf
  constructor
  · rintro ⟨hp, n, hn, hx, first⟩
    refine ⟨(test (i, e) (hx ▸ List.getElem_mem hn)).1 hp, n, by rw [List.getElem?_eq_getElem hn, hx], ?_⟩
    intro m j f lt hm taken
    obtain ⟨lm, hf⟩ := List.getElem?_eq_some_iff.1 hm
    have no := first m lt
    rw [hf, (test (j, f) (mem j f taken)).2 taken] at no
    cases no
  · rintro ⟨hp, n, hn, first⟩
    obtain ⟨ln, hx⟩ := List.getElem?_eq_some_iff.1 hn
    refine ⟨(test (i, e) (mem i e hp)).2 hp, n, ln, hx, fun m lt => ?_⟩
    have lm := lt.trans ln
    have no := first m s.ranked[m].1 s.ranked[m].2 lt (List.getElem?_eq_getElem lm)
    cases hP : P s.ranked[m]
    · rfl
    · exact absurd ((test _ (List.getElem_mem lm)).1 hP) no

/-- The eligible ones among some ranked entries (R92). -/
theorem State.eligible_filter {p : Nat → Entry → Prop} {P : Nat × Entry → Bool}
    (test : ∀ x ∈ s.ranked, (P x = true ↔ p x.1 x.2)) (mem : ∀ i e, p i e → (i, e) ∈ s.ranked) :
    ∃ Q : Nat × Entry → Bool, eligible (s.ranked.filter P) = s.ranked.filter Q
      ∧ ∀ x ∈ s.ranked, (Q x = true ↔ eligibleOf p x.1 x.2) := by
  unfold eligible eligibleOf
  by_cases some : ((s.ranked.filter P).any fun x => decide (1 ≤ x.2.tier)) = true
  · refine ⟨fun x => P x && decide (1 ≤ x.2.tier), by rw [if_pos some, List.filter_filter]; congr 1; funext x; exact Bool.and_comm _ _,
      fun x hx => ?_⟩
    obtain ⟨y, hy, tier⟩ := List.any_eq_true.1 some
    obtain ⟨hy, py⟩ := List.mem_filter.1 hy
    have tier : 1 ≤ y.2.tier := of_decide_eq_true tier
    rw [Bool.and_eq_true, test x hx, decide_eq_true_iff]
    refine and_congr_right fun _ => ⟨.inl, fun h => h.resolve_right fun all => ?_⟩
    have := all y.1 y.2 ((test y hy).1 py)
    omega
  · refine ⟨P, if_neg some, fun x hx => ?_⟩
    rw [test x hx]
    refine ⟨fun h => ⟨h, .inr fun j f hf => ?_⟩, And.left⟩
    have no : ¬ 1 ≤ f.tier := fun tier => some (List.any_eq_true.2 ⟨(j, f),
      List.mem_filter.2 ⟨mem j f hf, (test _ (mem j f hf)).2 hf⟩, decide_eq_true tier⟩)
    omega

theorem State.candidate_ranked {s : State} {i : Nat} {e : Entry} (h : s.Candidate i e) : (i, e) ∈ s.ranked :=
  (s.mem_ranked i e).2 ⟨h.1, h.2.1⟩

/-- The candidates as a test on the ranked list. -/
theorem State.candidates_test : ∃ P : Nat × Entry → Bool, s.candidates = s.ranked.filter P
    ∧ ∀ x ∈ s.ranked, (P x = true ↔ s.Candidate x.1 x.2) :=
  ⟨_, rfl, fun x hx => (List.mem_filter.trans (and_iff_right hx)).symm.trans (s.candidate_iff x.1 x.2)⟩

theorem eligibleOf_mem {p : Nat → Entry → Prop} (mem : ∀ i e, p i e → (i, e) ∈ s.ranked) (i : Nat) (e : Entry)
    (h : eligibleOf p i e) : (i, e) ∈ s.ranked := mem i e h.1

/-- The walk's choice is what the statements say of it (R92, R93). -/
theorem State.choose_of {s : State} {i : Nat} {e : Entry} (h : s.Chooses i e) : s.choose = some (i, e) := by
  obtain ⟨P, candidates, test⟩ := s.candidates_test
  have ranked : ∀ i e, s.Candidate i e → (i, e) ∈ s.ranked := fun i e => State.candidate_ranked
  obtain ⟨Q, elig, takes⟩ := s.eligible_filter test ranked
  have head (i : Nat) (e : Entry) : (s.ranked.filter Q).head? = some (i, e) ↔ s.FirstOf (eligibleOf s.Candidate) i e := by
    rw [List.head?_filter]
    exact s.firstOf_iff takes (eligibleOf_mem s ranked) i e
  have find (r : Radio) (i : Nat) (e : Entry) : ((s.ranked.filter Q).find? fun x => x.2.radio == r) = some (i, e)
      ↔ s.FirstOf (fun j f => eligibleOf s.Candidate j f ∧ f.radio = r) i e := by
    rw [List.find?_filter]
    refine s.firstOf_iff (fun x hx => ?_) (fun i e h => ranked i e h.1.1) i e
    rw [decide_eq_true_iff, takes x hx, beq_iff_eq]
  have shuns (r : Radio) : s.shunned = some r ↔ s.call.lastFailed = some r ∧ 2 ≤ s.call.radioFailures.get r := by
    unfold State.shunned
    rw [Option.filter_eq_some_iff, decide_eq_true_iff]
  unfold State.choose
  rw [candidates, elig]
  rcases h with ⟨straight, first⟩ | ⟨r, turns, first⟩
  · cases hs : s.shunned with
    | none => exact (head i e).2 first
    | some r =>
      have none : ((s.ranked.filter Q).find? fun x => x.2.radio == otherRadio r) = none := by
        refine List.find?_eq_none.2 fun x hx radio => straight r ?_
        obtain ⟨hx, taken⟩ := List.mem_filter.1 hx
        exact ⟨((shuns r).1 hs).1, ((shuns r).1 hs).2, x.1, x.2, (takes x hx).1 taken, beq_iff_eq.1 radio⟩
      show (List.find? _ _).or _ = _
      rw [none, Option.none_or]
      exact (head i e).2 first
  · rw [(shuns r).2 ⟨turns.1, turns.2.1⟩]
    show (List.find? _ _).or _ = _
    rw [(find _ i e).2 first, Option.some_or]

theorem State.choose_none {s : State} (h : ∀ i e, ¬ s.Candidate i e) : s.choose = none := by
  cases hc : s.choose with
  | none => rfl
  | some x => exact absurd ((s.candidate_iff x.1 x.2).1 (State.choose_mem hc)) (h _ _)

theorem State.chooseOn_of {s : State} {r : Radio} {i : Nat} {e : Entry} (h : s.ChoosesOn r i e) :
    s.chooseOn r = some (i, e) := by
  obtain ⟨P, candidates, test⟩ := s.candidates_test
  have mine : ∀ x ∈ s.ranked, ((P x && x.2.radio == r) = true ↔ s.Candidate x.1 x.2 ∧ x.2.radio = r) := fun x hx => by
    rw [Bool.and_eq_true, test x hx, beq_iff_eq]
  have ranked : ∀ i e, s.Candidate i e ∧ e.radio = r → (i, e) ∈ s.ranked := fun i e h => State.candidate_ranked h.1
  obtain ⟨Q, elig, takes⟩ := s.eligible_filter mine ranked
  unfold State.chooseOn
  rw [candidates, List.filter_filter,
    show (fun x : Nat × Entry => (x.2.radio == r) && P x) = fun x => P x && x.2.radio == r from
      funext fun x => Bool.and_comm _ _, elig, List.head?_filter]
  exact (s.firstOf_iff takes (eligibleOf_mem s ranked) i e).2 h

theorem State.chooseOn_none {s : State} {r : Radio} (h : ∀ i e, s.Candidate i e → e.radio ≠ r) : s.chooseOn r = none := by
  cases hc : s.chooseOn r with
  | none => rfl
  | some x => exact absurd (State.chooseOn_mem hc).2 (h _ _ ((s.candidate_iff x.1 x.2).1 (State.chooseOn_mem hc).1))

theorem State.Chooses.candidate {s : State} {i : Nat} {e : Entry} (h : s.Chooses i e) : s.Candidate i e := by
  rcases h with ⟨-, first⟩ | ⟨r, -, first⟩
  · exact first.1.1
  · exact first.1.1.1

theorem State.ChoosesOn.candidate {s : State} {r : Radio} {i : Nat} {e : Entry} (h : s.ChoosesOn r i e) :
    s.Candidate i e ∧ e.radio = r := h.1.1

end

/-! ### The ordering of an attempt (R94, R123) -/

/-- The call state once an attempt is ordered (R94, step 5). -/
def CallState.placed : CallState → CallState
  | .idle | .seeking | .backoff | .callback => .placing
  | .placing => .placing
  | .recovering => .recovering
  | .connected => .connected
  | .ending => .ending

/-- The stagger once an attempt is ordered (R123, R125). -/
def CallRecord.staggered (c : CallRecord) (effect : Bool) (number : Nat) : Stagger :=
  if c.attempts.any fun a => a.isWanted && a.number != number then .stopped
  else if effect && (c.state == .placing || c.state == .recovering) then .counting 0
  else c.stagger

/-- The call record once an attempt is ordered on an entry, but for the stagger (R94). -/
def State.orderedCall (s : State) (i : Nat) (e : Entry) : CallRecord :=
  { s.call with
    state := s.call.state.placed
    attempts := s.call.attempts ++ [newAttempt s i e s.call.nextAttempt]
    nextAttempt := numberAfter (s.call.attempts ++ [newAttempt s i e s.call.nextAttempt]) s.call.nextAttempt }

section
variable (s : State)

theorem State.enterPlacing_eq : s.enterPlacing = s.setCall s.call.state.placed := by
  unfold State.enterPlacing
  rw [State.setCall_eq]
  split <;> rename_i h <;> simp [h, CallState.placed, State.setCall_eq]

theorem State.staggerOnOrder_eq (n : Nat) :
    s.staggerOnOrder n = s.setStagger (s.call.staggered s.staggerInEffect n) := by
  unfold State.staggerOnOrder CallRecord.staggered State.isPlacing
  split
  · rfl
  · split <;> rfl

theorem CallState.placed_ne (c : CallState) : c.placed ≠ .idle := by cases c <;> decide

theorem State.setCall_staggerInEffect (st : CallState) : (s.setCall st).staggerInEffect = s.staggerInEffect := by
  unfold State.staggerInEffect
  rw [(s.setCall_inner st).same.profile, (s.setCall_inner st).same.supply]

/-- The state in which the attempt's order is queued. -/
def State.pinned (s : State) (i : Nat) (e : Entry) : State :=
  (s.mapCall fun c => { c with
    attempts := (s.orderedCall i e).attempts, nextAttempt := (s.orderedCall i e).nextAttempt }).pinSlot i

/-- The ATTEMPT order of an entry. -/
def Entry.order (e : Entry) (i number : Nat) : Order := .attempt number i e.network e.generation e.cell e.channel

theorem State.orderAttempt_eq (i : Nat) (e : Entry) : s.orderAttempt i e =
    (((s.pinned i e).queueAttempt e.radio (e.order i s.call.nextAttempt)).enterPlacing).staggerOnOrder s.call.nextAttempt := rfl

theorem State.pinned_tables (i : Nat) (e : Entry) : Tables (s.mapCall fun c => { c with
    attempts := (s.orderedCall i e).attempts, nextAttempt := (s.orderedCall i e).nextAttempt }) (s.pinned i e) :=
  State.pinSlot_tables _ i

theorem State.pinned_radio (i : Nat) (e : Entry) (q : Radio) : (s.pinned i e).radio q = s.radio q :=
  (s.pinned_tables i e).radio q

theorem State.pinned_call (i : Nat) (e : Entry) : (s.pinned i e).call =
    { s.call with attempts := (s.orderedCall i e).attempts, nextAttempt := (s.orderedCall i e).nextAttempt } :=
  (s.pinned_tables i e).call

theorem State.pinned_open {s : State} {i : Nat} {e : Entry} {r : Radio} (h : s.Open r) : (s.pinned i e).Open r := by
  unfold State.Open at *
  rwa [State.pinned_radio]

end

/-- What the ordering of an attempt leaves of the radios, the orders, the surveys and the notices. -/
structure State.Ordered (s t : State) (i : Nat) (e : Entry) : Prop where
  call : t.call = { s.orderedCall i e with
    stagger := (s.orderedCall i e).staggered s.staggerInEffect s.call.nextAttempt }
  placed : s.Placed t i e s.call.nextAttempt
  core : ∀ q, t.core q
    = if q = e.radio then { s.core q with state := .attempting, start := none, take := some 0 } else s.core q
  posts : Posts s t
  posted : s.call.state ≠ s.call.state.placed → (t.port .station).pending.call = true
  urgent : s.call.state = .seeking → t.survey.urgent = false
  mem : ∀ q (x : Order), x.kind ≠ .survey → x.kind ≠ .power → x.kind ≠ .attempt ∨ q ≠ e.radio →
    (x ∈ (t.radio q).queue ↔ x ∈ (s.radio q).queue)

theorem State.orderAttempt_ordered {s : State} {i : Nat} {e : Entry} (cand : s.Candidate i e) :
    s.Ordered (s.orderAttempt i e) i e := by
  obtain ⟨entry, -, opened, -, fresh⟩ := cand
  have queued := State.queueAttempt_queued (s := s.pinned i e) (o := e.order i s.call.nextAttempt)
    (State.pinned_open opened) rfl
  have settings := s.orderAttempt_inner i e fun a ha => (fresh a ha).2
  rw [State.orderAttempt_eq, State.enterPlacing_eq, State.staggerOnOrder_eq]
  rw [State.orderAttempt_eq, State.enterPlacing_eq, State.staggerOnOrder_eq] at settings
  revert queued settings
  generalize (s.pinned i e).queueAttempt e.radio (e.order i s.call.nextAttempt) = u
  intro queued settings
  have callU : u.call = (s.pinned i e).call := (congrArg State.call queued.rest : _)
  have state : u.call.state = s.call.state := by rw [callU, State.pinned_call]
  have call : (u.setCall u.call.state.placed).call = s.orderedCall i e := by
    rw [State.setCall_other _ (CallState.placed_ne _), state, callU, State.pinned_call]
    rfl
  have effect : (u.setCall u.call.state.placed).staggerInEffect = s.staggerInEffect := by
    rw [State.setCall_staggerInEffect]
    unfold State.staggerInEffect
    rw [show u.profile = s.profile from (congrArg State.profile queued.rest : _).trans (s.pinned_tables i e).profile,
      show u.supply = s.supply from (congrArg State.supply queued.rest : _).trans (s.pinned_tables i e).supply]
  have core (q : Radio) : (u.setCall u.call.state.placed).core q
      = if q = e.radio then { s.core q with state := .attempting, start := none, take := some 0 } else s.core q := by
    rw [State.setCall_core, queued.core]
    exact if_congr Iff.rfl (by rw [(s.pinned_tables i e).core]; rfl) (by rw [(s.pinned_tables i e).core]; rfl)
  have stirs := u.setCall_stirs u.call.state.placed
  have tends : Tends NoneEnds (if u.call.state = u.call.state.placed then u else
      (u.mapCall (·.inState u.call.state.placed)).post .call) (u.setCall u.call.state.placed) := by
    rw [State.setCall_eq]
    split
    · exact .refl _
    · exact State.callChanged_tends _ _ _
  have radioU (q : Radio) : State.radio (if u.call.state = u.call.state.placed then u else
      (u.mapCall (·.inState u.call.state.placed)).post .call) q = u.radio q := by
    split
    · rfl
    · exact State.radio_of_radios (State.post_radios _ _) q
  have attempting : (u.radio e.radio).state = .attempting := by
    have := congrArg RadioContext.state (queued.core e.radio)
    rwa [if_pos rfl] at this
  obtain ⟨l, own, clean⟩ := queued.order
  have noSnooze : .power .snooze ∉ (u.radio e.radio).queue := by
    rw [own, List.mem_append, List.mem_singleton]
    rintro (h | h)
    · exact (clean _ h).2 rfl
    · cases h
  have queue : ((u.setCall u.call.state.placed).radio e.radio).queue = (u.radio e.radio).queue := by
    have still := tends.still (r := e.radio) (by rw [radioU, attempting]; rfl) (by rw [radioU, attempting]; decide)
      (by rw [radioU]; exact noSnooze)
    rw [radioU] at still
    refine still.elim id fun dropped => dropped.trans (List.filter_eq_self.2 fun x hx => ?_)
    rw [own, List.mem_append, List.mem_singleton] at hx
    rcases hx with hx | rfl
    · simpa using (clean x hx).1
    · rfl
  have entries (j : Nat) : (u.setCall u.call.state.placed).entry j = (s.pinned i e).entry j := by
    rw [State.setCall_entry]
    unfold State.entry
    rw [queued.table]
  have entriesPinned (j : Nat) : (s.pinned i e).entry j
      = if j = i then (s.entry j).map ({ · with pin := true }) else s.entry j := State.pinSlot_entry _ i j
  have survey (q : Radio) : (s.pinned i e).surveyOf q = s.surveyOf q := (s.pinned_tables i e).surveyOf q
  have surveyU (q : Radio) : State.surveyOf (if u.call.state = u.call.state.placed then u
      else u.mapCall (·.inState u.call.state.placed)) q = u.surveyOf q := by split <;> rfl
  have runs (q : Radio) := stirs.runs q
  simp only [surveyU] at runs
  have stopped (h : (s.radio e.radio).state = .surveying ∨ (s.surveyOf e.radio).isRunning = false) :
      ((u.setCall u.call.state.placed).surveyOf e.radio).isRunning = false := by
    refine (runs e.radio).2 (queued.stopped ?_)
    rwa [State.pinned_radio, survey]
  constructor
  case call =>
    show ({ (u.setCall u.call.state.placed).call with stagger := _ } : CallRecord) = _
    rw [effect, call]
  case placed =>
    have other : ({ s.pinned i e with table := s.table, call := s.call, ports := s.ports } : State) = s := by
      have rest := (s.pinned_tables i e).rest
      exact (congrArg (fun x : State => { x with table := s.table, call := s.call, ports := s.ports }) rest : _)
    constructor
    case radio =>
      have own := core e.radio
      rw [if_pos rfl] at own
      exact State.radio_of_core (c := { s.radio e.radio with state := .attempting, start := none, take := some 0 }) own
    case order =>
      show (((u.setCall _).radio e.radio).queue).getLast? = _
      rw [queue, own, List.getLast?_concat]
      rfl
    case removed =>
      intro o ho
      have ho : o ∈ ((u.setCall u.call.state.placed).radio e.radio).queue := ho
      rw [queue, own, List.mem_append, List.mem_singleton] at ho
      rcases ho with ho | rfl
      · exact clean o ho
      · exact ⟨OrderKind.noConfusion, Order.noConfusion⟩
    case survey => exact fun surveying => (SurveyState.isRunning_eq_false _).1 (stopped (.inl surveying))
    case other => exact State.radioKept_iff.2 ((core _).trans (if_neg (otherRadio_ne e.radio)))
    case pinned => exact ((entries i).trans (entriesPinned i)).trans (by rw [if_pos rfl, entry]; rfl)
    case entries => exact fun j ne => ((entries j).trans (entriesPinned j)).trans (if_neg ne)
    case table =>
      show ({ (u.setCall u.call.state.placed).table with slots := s.table.slots } : _) = _
      rw [State.setCall_table, queued.table]
      unfold State.pinned State.pinSlot
      exact State.mapSlot_timers (s.mapCall fun c => { c with
        attempts := (s.orderedCall i e).attempts, nextAttempt := (s.orderedCall i e).nextAttempt }) i
          fun e => some { e with pin := true }
    case journal =>
      exact (State.setCall_journal _ _).trans ((congrArg State.journal queued.rest : _).trans (s.pinned_tables i e).journal)
    case rest => exact ⟨settings.same.prefs, settings.same.supply, settings.same.profile⟩
  case core => exact core
  case posts =>
    refine Posts.trans (t := u) ?_ ((State.setCall_posts _ _).trans (.of_ports rfl))
    exact (Posts.trans (t := s.mapCall _) (.of_ports rfl) (State.pinSlot_posts _ i)).trans queued.posts
  case posted => exact fun ne => State.setCall_posted u (by rw [state]; exact ne)
  case urgent =>
    intro seeking
    exact State.setCall_urgentEnd (by rw [state]; exact seeking) (by rw [state, seeking]; decide)
  case mem =>
    intro q x survey power or
    exact (State.setCall_mem u _ q survey power).trans ((queued.mem q x survey power or).trans (by rw [State.pinned_radio]))

end Sys2Proof.Machine
end

section
/-! PROOFS. The events that run selection (R94, R95, R126), the end of a handling (R69), and the ends of the back-off and
of the stagger timer (O57). -/

namespace Sys2Proof.Machine

/-! ### What a candidate event orders -/

section
variable {s t : State} {r : Radio}

/-- The event runs a walk that chooses the entry: selection in SEEKING, the walk of an OPEN stagger beside a lone early
attempt (R95, R126). -/
def State.Selects (s : State) (r : Radio) (i : Nat) (e : Entry) : Prop :=
  (s.call.state = .seeking ∧ s.choose = some (i, e))
    ∨ ((s.call.state = .placing ∨ s.call.state = .recovering) ∧ s.call.stagger = .opened
      ∧ (∃ a, s.call.attempts = [a] ∧ a.disposition = none ∧ a.Early ∧ a.radio = otherRadio r)
      ∧ s.chooseOn r = some (i, e))

theorem State.Selects.candidate {i : Nat} {e : Entry} (h : s.Selects r i e) : s.Candidate i e := by
  rcases h with ⟨-, h⟩ | ⟨-, -, -, h⟩
  · exact (s.candidate_iff i e).1 (State.choose_mem h)
  · exact (s.candidate_iff i e).1 (State.chooseOn_mem h).1

theorem Attempt.isWanted_iff (a : Attempt) : a.isWanted = true ↔ a.disposition = none := Option.isNone_iff_eq_none

theorem AttemptStep.isEarly_iff (a : Attempt) : a.step.isEarly = true ↔ a.Early := by
  unfold Attempt.Early
  cases a.step <;> simp [AttemptStep.isEarly]

theorem State.lead_eq {a : Attempt} (alone : s.call.attempts = [a]) (wanted : a.disposition = none) : s.lead = some a := by
  unfold State.lead
  rw [alone, List.find?_cons_of_pos ((Attempt.isWanted_iff a).2 wanted)]

theorem State.walkLead_iff {a : Attempt} :
    s.walkLead = some a ↔ s.call.attempts = [a] ∧ a.disposition = none ∧ a.Early := by
  unfold State.walkLead
  rw [Option.filter_eq_some_iff, Bool.and_eq_true, AttemptStep.isEarly_iff, beq_iff_eq]
  constructor
  · rintro ⟨lead, early, one⟩
    obtain ⟨b, hb⟩ := List.length_eq_one_iff.1 one
    have mem := List.mem_of_find?_eq_some lead
    rw [hb, List.mem_singleton] at mem
    subst mem
    exact ⟨hb, (Attempt.isWanted_iff a).1 (List.find?_some lead), early⟩
  · rintro ⟨alone, wanted, early⟩
    exact ⟨State.lead_eq alone wanted, early, by rw [alone]; rfl⟩

theorem State.setStagger_same {g : Stagger} (h : s.call.stagger = g) : s.setStagger g = s := by
  subst h
  rfl

theorem State.otherRadio_swap {q r : Radio} : otherRadio q = r ↔ q = otherRadio r := by cases q <;> cases r <;> decide

/-- A candidate event orders an attempt on what its walk chooses, and does nothing else. -/
theorem State.callEvent_cases (s : State) (r : Radio) :
    s.callEvent r = s ∨ ∃ i e, s.Selects r i e ∧ s.callEvent r = s.orderAttempt i e := by
  unfold State.callEvent
  split
  case h_1 seeking =>
    unfold State.runSelection
    split
    · next i e chosen => exact .inr ⟨i, e, .inl ⟨seeking, chosen⟩, rfl⟩
    · unfold State.foundNothing
      rw [seeking]
      exact .inl rfl
  case h_2 placing | h_3 placing =>
    split
    · next a opened lead =>
      split
      · next other =>
        unfold State.secondWalk
        split
        · next i e chosen =>
          obtain ⟨alone, wanted, early⟩ := State.walkLead_iff.1 lead
          exact .inr ⟨i, e, .inr ⟨by simp [placing], opened, ⟨a, alone, wanted, early, State.otherRadio_swap.1 other⟩,
            chosen⟩, rfl⟩
        · exact .inl (State.setStagger_same opened)
      · exact .inl rfl
    · exact .inl rfl
    · exact .inl rfl
    · exact .inl rfl
  all_goals exact .inl rfl

theorem State.callEvent_seeking (seeking : s.call.state = .seeking) : s.callEvent r = s.runSelection := by
  unfold State.callEvent
  rw [seeking]

theorem State.runSelection_of {i : Nat} {e : Entry} (h : s.Chooses i e) : s.runSelection = s.orderAttempt i e := by
  unfold State.runSelection
  rw [State.choose_of h]

theorem State.runSelection_none (h : ∀ i e, ¬ s.Candidate i e) : s.runSelection = s.foundNothing := by
  unfold State.runSelection
  rw [State.choose_none h]

theorem State.callEvent_opened {a : Attempt} (placing : s.call.state = .placing ∨ s.call.state = .recovering)
    (opened : s.call.stagger = .opened) (lead : s.walkLead = some a) (other : otherRadio a.radio = r) :
    s.callEvent r = s.secondWalk r := by
  unfold State.callEvent
  rcases placing with h | h <;> rw [h, opened, lead] <;> exact if_pos other

theorem State.callEvent_unopened (seeking : s.call.state ≠ .seeking) (opened : s.call.stagger ≠ .opened) (r : Radio) :
    s.callEvent r = s := by
  rcases s.callEvent_cases r with same | ⟨i, e, h, -⟩
  · exact same
  · rcases h with ⟨h, -⟩ | ⟨-, h, -⟩
    · exact absurd h seeking
    · exact absurd h opened

/-- No candidate event of the radio orders anything. -/
theorem State.callEvent_noSelection (h : s.NoSelection r) : s.callEvent r = s := by
  rcases s.callEvent_cases r with same | ⟨i, e, selects, -⟩
  · exact same
  · have cand := selects.candidate
    rcases selects with ⟨seeking, -⟩ | ⟨placing, opened, ⟨a, alone, wanted, early, other⟩, chosen⟩
    · exact absurd cand (h.1 seeking i e)
    · exact absurd (State.chooseOn_mem chosen).2 (h.2 a placing opened alone wanted early other i e cand)

end

/-! ### The end of a handling (R69) -/

section
variable {s t : State}

/-- Nothing is owed at the end of a handling after which no candidate event does anything. -/
theorem settle_quiet (h : ∀ r, t.callEvent r = t) : settle s t = t := by
  unfold settle
  simp [h]

theorem settle_deaf (seeking : t.call.state ≠ .seeking) (placing : t.call.state ≠ .placing)
    (recovering : t.call.state ≠ .recovering) : settle s t = t :=
  settle_quiet fun r => State.callEvent_deaf r seeking placing recovering

theorem settle_unopened (seeking : t.call.state ≠ .seeking) (opened : t.call.stagger ≠ .opened) : settle s t = t :=
  settle_quiet (State.callEvent_unopened seeking opened)

end

/-! ### The call record once an attempt has been ordered -/

section
variable {s t : State} {i : Nat} {e : Entry}

theorem nextNumber_ne_self (n : Nat) : nextNumber n ≠ n := by
  unfold nextNumber
  split <;> omega

theorem numberAfter_alone (a : Attempt) (n : Nat) (h : a.number = n) : numberAfter [a] n = afterAttempt n := by
  unfold numberAfter
  rw [if_neg]
  · rfl
  · simp [h, (nextNumber_ne_self n).symm]

theorem numberAfter_beside (a b : Attempt) (n : Nat) (h : b.number = n) :
    numberAfter [a, b] n = afterAttemptBeside a n := by
  unfold numberAfter afterAttemptBeside
  have own : ¬ n = nextNumber n := (nextNumber_ne_self n).symm
  simp only [List.any_cons, List.any_nil, Bool.or_false, Bool.or_eq_true, beq_iff_eq, h, own, or_false]
  rfl

theorem State.staggerInEffect_iff (s : State) :
    s.staggerInEffect = true ↔ s.profile.staggered = true ∧ s.supply.condition = .normal := by
  simp [State.staggerInEffect]

/-- A lone attempt has been ordered (R94, R123). -/
theorem State.Ordered.alone (h : s.Ordered t i e) (none : s.call.attempts = [])
    (placing : s.call.state.placed = .placing ∨ s.call.state.placed = .recovering) : t.call = { s.call with
      state := s.call.state.placed, attempts := [s.orderedAttempt i e s.call.nextAttempt]
      nextAttempt := afterAttempt s.call.nextAttempt, stagger := s.staggerAfter } := by
  rw [h.call]
  unfold State.orderedCall
  simp only [none, List.nil_append]
  rw [numberAfter_alone (newAttempt s i e s.call.nextAttempt) s.call.nextAttempt rfl]
  have stagger : CallRecord.staggered { s.call with
      state := s.call.state.placed, attempts := [newAttempt s i e s.call.nextAttempt]
      nextAttempt := afterAttempt s.call.nextAttempt } s.staggerInEffect s.call.nextAttempt = s.staggerAfter := by
    unfold CallRecord.staggered State.staggerAfter
    rw [if_neg (by simp [newAttempt])]
    refine if_congr ?_ rfl rfl
    rw [Bool.and_eq_true, State.staggerInEffect_iff]
    exact and_iff_left (by rcases placing with p | p <;> rw [p] <;> rfl)
  rw [stagger]
  rfl

/-- A second attempt has been ordered beside a wanted one (R94, R125). -/
theorem State.Ordered.beside (h : s.Ordered t i e) {a : Attempt} (one : s.call.attempts = [a]) (wanted : a.disposition = none)
    (number : a.number ≠ s.call.nextAttempt) (placing : s.call.state = .placing ∨ s.call.state = .recovering) :
    t.call = { s.call with
      attempts := [a, s.orderedAttempt i e s.call.nextAttempt]
      nextAttempt := afterAttemptBeside a s.call.nextAttempt, stagger := .stopped } := by
  have state : s.call.state.placed = s.call.state := by rcases placing with p | p <;> rw [p] <;> rfl
  rw [h.call]
  unfold State.orderedCall
  simp only [one, List.cons_append, List.nil_append, state]
  rw [numberAfter_beside a (newAttempt s i e s.call.nextAttempt) s.call.nextAttempt rfl]
  have stagger : CallRecord.staggered { s.call with
      attempts := [a, newAttempt s i e s.call.nextAttempt]
      nextAttempt := afterAttemptBeside a s.call.nextAttempt } s.staggerInEffect s.call.nextAttempt = .stopped := by
    unfold CallRecord.staggered
    exact if_pos (by simp [Attempt.isWanted, wanted, number])
  rw [stagger]
  rfl

/-- What selection has placed stands through what the scheduler and the snooze test then do. -/
theorem State.Placed.tends {u : State} {d : Radio → Prop} {n : Nat} (h : s.Placed t i e n) (k : Tends d t u) :
    s.Placed u i e n := by
  have quiet := k.quiet
  have state : (t.radio e.radio).state = .attempting := by rw [h.radio]
  have own : (u.radio e.radio).queue = (t.radio e.radio).queue := by
    have still := k.still (by rw [state]; rfl) (by rw [state]; decide) fun now => (h.removed _ now).2 rfl
    refine still.elim id fun dropped => dropped.trans (List.filter_eq_self.2 fun x hx => ?_)
    simpa using (h.removed x hx).1
  have entry (j : Nat) : u.entry j = t.entry j := quiet.entry j
  constructor
  case radio =>
    have kept := (quiet.radioKept e.radio).eq
    rw [own] at kept ⊢
    rw [kept]
    exact h.radio
  case order => rw [own]; exact h.order
  case removed => rw [own]; exact h.removed
  case survey =>
    exact fun surveying => (SurveyState.isRunning_eq_false _).1
      (k.stopped ((SurveyState.isRunning_eq_false _).2 (h.survey surveying)))
  case other => exact State.radioKept.trans (t := t) h.other (quiet.radioKept _)
  case pinned => rw [entry]; exact h.pinned
  case entries => exact fun j ne => (entry j).trans (h.entries j ne)
  case table => rw [quiet.table]; exact h.table
  case journal => rw [quiet.journal]; exact h.journal
  case rest => exact ⟨quiet.inner.same.prefs.trans h.rest.1, quiet.inner.same.supply.trans h.rest.2.1,
    quiet.inner.same.profile.trans h.rest.2.2⟩

/-- The state but for the ports, as what is placed speaks of it. -/
theorem State.Placed.of_rest {u : State} {n : Nat} (h : s.Placed t i e n) (rest : { u with ports := t.ports } = t) :
    s.Placed u i e n := by
  have h2 : s.Placed { u with ports := t.ports } i e n := rest.symm ▸ h
  exact ⟨h2.radio, h2.order, h2.removed, h2.survey, h2.other, h2.pinned, h2.entries, h2.table, h2.journal, h2.rest⟩

end

/-- The event does what the statements say of it (R95, R126). -/
theorem State.callEvent_walks (u : State) (r : Radio) : u.Walks (u.callEvent r) r := by
  constructor
  · intro seeking none part
    rw [State.callEvent_seeking seeking]
    constructor
    · intro no
      rw [State.runSelection_none no]
      unfold State.foundNothing
      rw [seeking]
      exact ⟨rfl, rfl⟩
    · intro i e chosen
      rw [State.runSelection_of chosen]
      have ordered := State.orderAttempt_ordered chosen.candidate
      refine ⟨ordered.placed, ordered.urgent seeking, (ordered.alone none (.inl (by rw [seeking]; rfl))).trans ?_⟩
      rw [seeking]
      rfl
  · intro a placing opened one wanted part number
    constructor
    · intro no
      have same : u.callEvent r = u := by
        refine State.callEvent_noSelection ⟨fun seeking => ?_, fun b _ _ alone _ early other i e cand => ?_⟩
        · rw [seeking] at placing
          rcases placing with h | h <;> cases h
        · rw [one] at alone
          cases alone
          rcases no with late | here | no
          · exact absurd early late
          · exact absurd (here.symm.trans other).symm (otherRadio_ne r)
          · exact no i e cand
      rw [same]
      exact ⟨rfl, rfl⟩
    · intro i e early other chosen
      rw [State.callEvent_opened placing opened (State.walkLead_iff.2 ⟨one, wanted, early⟩) (State.otherRadio_swap.2 other)]
      unfold State.secondWalk
      rw [State.chooseOn_of chosen]
      have ordered := State.orderAttempt_ordered chosen.candidate.1
      exact ⟨ordered.placed, ordered.beside one wanted number placing⟩

/-- What the event has done stands through what the scheduler and the snooze test then do, with a notice. -/
theorem State.Walks.tends {u t v : State} {r : Radio} {d : Radio → Prop} (h : u.Walks t r) (k : Tends d t v)
    (urgent : v.survey.urgent = t.survey.urgent) : u.Walks v r := by
  refine ⟨fun seeking none part => ?_, fun a placing opened one wanted part number => ?_⟩
  · obtain ⟨no, chosen⟩ := h.1 seeking none part
    refine ⟨fun never => ?_, fun i e choice => ?_⟩
    · rw [k.quiet.call, k.quiet.table]
      exact no never
    · obtain ⟨placed, ended, call⟩ := chosen i e choice
      exact ⟨placed.tends k, urgent.trans ended, k.quiet.call.trans call⟩
  · obtain ⟨no, chosen⟩ := h.2 a placing opened one wanted part number
    refine ⟨fun never => ?_, fun i e early other choice => ?_⟩
    · rw [k.quiet.call, k.quiet.table]
      exact no never
    · obtain ⟨placed, call⟩ := chosen i e early other choice
      exact ⟨placed.tends k, k.quiet.call.trans call⟩

theorem State.Walks.of_rest {u t v : State} {r : Radio} (h : u.Walks t r) (rest : { v with ports := t.ports } = t) :
    u.Walks v r := by
  have h2 : u.Walks { v with ports := t.ports } r := rest.symm ▸ h
  refine ⟨fun seeking none part => ⟨(h2.1 seeking none part).1, fun i e choice => ?_⟩,
    fun a placing opened one wanted part number => ⟨(h2.2 a placing opened one wanted part number).1,
      fun i e early other choice => ?_⟩⟩
  · obtain ⟨placed, ended⟩ := (h.1 seeking none part).2 i e choice
    have same := (h2.1 seeking none part).2 i e choice
    exact ⟨placed.of_rest rest, same.2⟩
  · exact ⟨((h.2 a placing opened one wanted part number).2 i e early other choice).1.of_rest rest,
      ((h2.2 a placing opened one wanted part number).2 i e early other choice).2⟩

/-! ### The ends of the back-off and of the stagger timer (R97, R125) -/

section
variable {s : State}

theorem State.radioReady_of_core {t : State} {r : Radio} (h : t.core r = s.core r) : t.radioReady r = s.radioReady r := by
  have state : (t.radio r).state = (s.radio r).state := (congrArg RadioContext.state h : _)
  unfold State.radioReady
  rw [state]

theorem State.giveUpSurplus_none (h : s.call.attempts = []) : s.giveUpSurplus = s := by
  unfold State.giveUpSurplus
  rw [h]
  rfl

/-- The ordering of an attempt brings no radio to READY. -/
theorem State.Ordered.unready {t : State} {i : Nat} {e : Entry} (h : s.Ordered t i e) (r : Radio) (ready : t.radioReady r = true) :
    s.radioReady r = true := by
  have core := h.core r
  split at core
  · have state : (t.radio r).state = .attempting := (congrArg RadioContext.state core : _)
    rw [State.radioReady_eq_false (by rw [state]; decide)] at ready
    cases ready
  · rwa [State.radioReady_of_core core] at ready

end

/-- Settles O57: each timer by whether it runs, and its walk by what it finds. -/
theorem backoffAndStagger : Obligations.BackoffAndStagger := by
  intro s reset
  refine ⟨fun stopped => ?_, fun runs backoff none part => ?_, fun stopped => ?_, fun n a counting one wanted early => ?_⟩
  · refine State.next_event reset ?_
    unfold State.backoffExpired
    rw [stopped]
    rfl
  · have some : s.call.backoff.isSome = true := Option.isSome_iff_ne_none.2 runs
    set h := s.mapCall fun c => { c with backoff := Option.none } with hh
    have ends : s.backoffExpired = settle s h.runSelection := if_pos some
    have callH : h.call = { s.call with backoff := Option.none } := rfl
    constructor
    · intro no
      have found : h.runSelection = h.setCall .seeking := by
        rw [State.runSelection_none (s := h) no, State.foundNothing, show h.call.state = .backoff from backoff]
        show h.giveUpSurplus.setCall .seeking = _
        rw [State.giveUpSurplus_none (s := h) none]
      have core (r : Radio) : (h.setCall .seeking).core r = s.core r := State.setCall_core _ _ r
      have settled : s.backoffExpired = h.setCall .seeking := by
        rw [ends, found]
        exact settle_unready fun r ready => by rwa [State.radioReady_of_core (core r)] at ready
      have inner := (State.setCall_inner h .seeking).same
      refine ⟨_, State.next_event reset settled, (State.setCall_other _ (by decide)).trans rfl,
        State.setCall_urgentBegin (by rw [callH, backoff]; decide), State.setCall_posted _ (by rw [callH, backoff]; decide),
        State.setCall_table _ _, State.setCall_journal _ _, fun r => State.radioKept_iff.2 (core r),
        inner.prefs, inner.supply, inner.profile⟩
    · intro i e chosen
      have ordered := State.orderAttempt_ordered (s := h) chosen.candidate
      have settled : s.backoffExpired = h.orderAttempt i e := by
        rw [ends, State.runSelection_of (s := h) chosen]
        exact settle_unready fun r ready => ordered.unready r ready
      refine ⟨_, State.next_event reset settled, (ordered.alone none (.inl ?_)).trans ?_, ?_, ordered.posted ?_⟩
      · rw [callH, backoff]
        rfl
      · rw [callH, backoff]
        rfl
      · have placed := ordered.placed
        exact ⟨placed.radio, placed.order, placed.removed, placed.survey, placed.other, placed.pinned, placed.entries,
          placed.table, placed.journal, placed.rest⟩
      · rw [callH, backoff]
        decide
  · refine State.next_event reset ?_
    unfold State.staggerExpired
    cases hs : s.call.stagger with
    | counting n => exact absurd hs (stopped n)
    | stopped | opened => rfl
  · have lead : s.walkLead = some a := State.walkLead_iff.2 ⟨one, wanted, early⟩
    have ends : s.staggerExpired = s.secondWalk (otherRadio a.radio) := by
      unfold State.staggerExpired State.staggerEnds
      rw [counting, lead]
    unfold State.secondWalk at ends
    constructor
    · intro no
      rw [State.chooseOn_none no] at ends
      exact State.next_event reset ends
    · intro i e chosen placing part number
      rw [State.chooseOn_of chosen] at ends
      have ordered := State.orderAttempt_ordered chosen.candidate.1
      exact ⟨_, State.next_event reset ends, ordered.beside one wanted number placing, ordered.placed⟩

end Sys2Proof.Machine
end

section
/-! PROOFS. A radio that is heard (R56, R63), its start (O40), and the end of a survey (O34). -/

namespace Sys2Proof.Machine

/-! ### The state of a radio that has been heard -/

section
variable {s : State} {r : Radio}

/-- A candidate event leaves a radio as it is, or makes it ATTEMPTING. -/
theorem State.callEvent_state (s : State) (r q : Radio) :
    ((s.callEvent r).radio q).state = (s.radio q).state ∨ ((s.callEvent r).radio q).state = .attempting := by
  rcases s.callEvent_cases r with same | ⟨i, e, selects, placed⟩
  · rw [same]
    exact .inl rfl
  · rw [placed]
    have core := (State.orderAttempt_ordered selects.candidate).core q
    split at core
    · exact .inr (congrArg RadioContext.state core : _)
    · exact .inl (congrArg RadioContext.state core : _)

theorem State.enterReady_state (s : State) (r : Radio) :
    ((s.enterReady r).radio r).state = .ready ∨ ((s.enterReady r).radio r).state = .attempting := by
  rw [State.enterReady_eq, (State.readyNeighbours_quiet _ r).state]
  have ready : ((s.readied r).radio r).state = .ready := by
    rw [State.readied_radio, if_pos rfl]
    rfl
  exact ((s.readied r).callEvent_state r r).imp_left (·.trans ready)

theorem State.heard_live (live : (s.radio r).state ≠ .off) :
    ((s.heard r).radio r).state ≠ .off ∧ ((s.heard r).radio r).state ≠ .silent := by
  cases now : (s.radio r).state with
  | off => exact absurd now live
  | ready | surveying | attempting | inCall =>
    rw [State.heard_working (by simp [now]), State.clearSilence_radio, if_pos rfl]
    simp [now]
  | starting | snooze | fault =>
    rw [State.heard_deaf (by simp [now])]
    simp [now]
  | silent =>
    rw [State.heard_silent now]
    unfold State.recover
    cases s.profile.recovery with
    | resume => rcases s.enterReady_state r with h | h <;> simp [h]
    | restart =>
      obtain ⟨t, eq, radio, -⟩ := s.recoverRestart_left r
      have state : (t.radio r).state = .starting := (congrArg RadioContext.state radio : _)
      simp [eq, state]

end

/-- Settles O40. -/
theorem moduleStatusAndStart : Obligations.ModuleStatusAndStart := by
  have request {s : State} {r : Radio} (speaks : s.Speaks r) {ready fault : Nat} {t : State} {x : Response}
      (eq : (s.heardOn r).moduleRequest r ready fault = (t, x)) :
      exec (.moduleStatus (.radio r) ready fault) s = .next (t.answered (.radio r) x) :=
    State.next_radio (f := fun r s => s.moduleRequest r ready fault) speaks eq
  have faults {s : State} {r : Radio} (speaks : s.Speaks r) : ((s.heardOn r).radio r).state ≠ .off
      ∧ ((s.heardOn r).radio r).state ≠ .silent := State.heard_live (by rw [State.opened_radio]; exact speaks.2.2)
  refine ⟨fun s r ready fault speaks => ?_, fun s r reset => ⟨fun stopped => ?_, fun running attempts part => ?_⟩⟩
  · dsimp only
    refine ⟨fun bad => request speaks ?_, fun zero calm => request speaks ?_, fun one fault => request speaks ?_,
      fun zero one starting idle => ?_, fun one fault attempts part => ?_⟩
    · unfold State.moduleRequest
      rcases bad with h | ⟨rfl, h⟩
      · rw [flagOf_eq_none h]; rfl
      · rw [flagOf_eq_none h]; rfl
    · subst zero
      unfold State.moduleRequest State.moduleStatus
      rcases calm with rfl | ⟨rfl, other⟩
      · cases ((s.heardOn r).radio r).state <;> rfl
      · cases h : ((s.heardOn r).radio r).state <;> first | rfl | exact absurd h other
    · subst one
      unfold State.moduleRequest State.moduleStatus
      rw [fault]
      rfl
    · subst zero one
      have deaf : ((s.heardOn r).dueFromStart r).call.state ≠ .seeking
          ∧ ((s.heardOn r).dueFromStart r).call.state ≠ .placing ∧ ((s.heardOn r).dueFromStart r).call.state ≠ .recovering := by
        show (s.heardOn r).call.state ≠ _ ∧ (s.heardOn r).call.state ≠ _ ∧ (s.heardOn r).call.state ≠ _
        rw [idle]
        exact ⟨by decide, by decide, by decide⟩
      let h := s.heardOn r
      let y := h.dueFromStart r
      obtain ⟨around, entries, hold, relax, posted, -⟩ := y.enterReady_left r deaf
      have ready : ((y.readied r).radio r).state = .ready := by
        rw [State.readied_radio, if_pos rfl]; rfl
      have state : (y.readied r).surveyOf r = (h.surveyOf r).wake := by
        rw [State.readied_surveyOf, dueFromStart_surveyOf, if_pos rfl]
      have rest : (y.readied r).survey.urgent = h.survey.urgent ∧ (y.readied r).survey.mode = h.survey.mode := by
        rw [State.readied_survey]
        have rest := setSurvey_rest h r (h.surveyOf r).wake
        exact ⟨(congrArg Scheduler.urgent rest : _), (congrArg Scheduler.mode rest : _)⟩
      have mid := y.readied_around r
      refine ⟨y.enterReady r, request speaks ?_, ?_, around.other, posted, entriesReturned_of entries, ?_, fun now calm => ?_,
        hold.trans (if_neg ?_), relax, around.call.trans (y.setRadioState_call r _),
        around.journal.trans (y.setRadioState_journal r _), around.prefs.trans (y.setRadioState_prefs r _),
        around.supply.trans (y.setRadioState_supply r _), around.profile.trans (y.setRadioState_profile r _)⟩
      · unfold State.moduleRequest State.moduleStatus
        dsimp only [flagOf]
        rw [starting]
        rfl
      · have kept := (around.radio r).eq
        rw [State.setRadioState_self, RadioContext.enter_ready] at kept
        · exact kept
        · show (h.radio r).state.isWorking = false
          rw [starting]; rfl
      · rw [y.enterReady_deaf r deaf]
        exact State.readyNeighbours_unwaiting ready fun p => by rw [state]; exact wake_not_waiting _ p
      · rw [y.enterReady_deaf r deaf]
        have due : (y.readied r).surveyOf r = .due := by
          rw [state]
          rcases now with k | ⟨p, k⟩ <;> rw [k] <;> rfl
        have key := State.readyNeighbours_surveyOf ready due (rest.1.trans calm)
        rw [rest.2, mid.supply, mid.profile, State.setRadioState_supply, State.setRadioState_profile] at key
        exact key
      · show (h.radio r).state ≠ .silent
        rw [starting]; decide
    · subst one
      refine ⟨_, request speaks ?_, State.enterFault_faulted r attempts part⟩
      unfold State.moduleRequest State.moduleStatus
      have live := faults speaks
      cases k : ((s.heardOn r).radio r).state <;> first | rfl | exact absurd k fault | exact absurd k live.1 | exact absurd k live.2
  · exact State.next_event reset (by unfold State.startExpired; rw [stopped]; rfl)
  · refine ⟨_, State.next_event reset ?_, State.enterFault_faulted r attempts part⟩
    unfold State.startExpired
    rw [if_pos (Option.isSome_iff_ne_none.2 running)]

/-! ### What the end of a survey leaves of the scheduler (R82, R83) -/

/-- The last surveyed radio and the urgent request stand. -/
structure MarksKept (s t : State) : Prop where
  last : t.survey.last = s.survey.last
  urgent : t.survey.urgent = s.survey.urgent

section
variable {s t u : State} {r : Radio}

theorem MarksKept.refl (s : State) : MarksKept s s := ⟨rfl, rfl⟩

theorem MarksKept.trans (h : MarksKept s t) (k : MarksKept t u) : MarksKept s u :=
  ⟨k.last.trans h.last, k.urgent.trans h.urgent⟩

theorem SurveyKept.marks (h : SurveyKept r s t) : MarksKept s t := ⟨h.last, h.urgent⟩

theorem MarksKept.of_survey (h : t.survey = s.survey) : MarksKept s t := by
  constructor <;> rw [h]

theorem MarksKept.fields (s : State) (f : Scheduler → Scheduler) (last : (f s.survey).last = s.survey.last := by rfl)
    (urgent : (f s.survey).urgent = s.survey.urgent := by rfl) : MarksKept s (s.mapSurvey f) := ⟨last, urgent⟩

theorem MarksKept.setSurvey (s : State) (r : Radio) (v : SurveyState) : MarksKept s (s.setSurvey r v) := by
  have rest := setSurvey_rest s r v
  exact ⟨(congrArg Scheduler.last rest : _), (congrArg Scheduler.urgent rest : _)⟩

theorem MarksKept.surveyTest (s : State) : MarksKept s s.surveyTest := (SurveyKept.surveyTest (r := .A) s).marks

theorem MarksKept.snoozeTest (s : State) (b : Bool) : MarksKept s (s.snoozeTest b) :=
  (SurveyKept.snoozeTest (r := .A) s b).marks

theorem MarksKept.modeChange (s : State) (m : SurveyMode) : MarksKept s (s.modeChange m) := by
  have drop : MarksKept s s.dropBoth := (SurveyKept.dropBoth .A s).marks
  unfold State.modeChange
  dsimp only
  split
  · exact .refl s
  · split
    · exact drop.trans (.fields _ _)
    · exact drop.trans (.fields _ _)
    · exact .fields _ _
    · exact .fields _ _

theorem MarksKept.arrangementChange (s : State) (a : Arrangement) : MarksKept s (s.arrangementChange a) := by
  unfold State.arrangementChange
  split
  · exact .refl s
  · refine .fields _ _ ?_ ?_ <;> cases s.effArrangement <;> rfl

theorem MarksKept.leaveOwed (s : State) (r : Radio) : MarksKept s (s.leaveOwed r) := by
  have out : MarksKept s (s.mapSurvey fun c => { c with owed := c.owed.set r false }) := .fields _ _
  unfold State.leaveOwed
  split
  · dsimp only
    split
    · refine out.trans ((MarksKept.fields _ fun c => { c with mode := .off, onceDone := true }).trans ?_)
      exact (MarksKept.modeChange _ _).trans ((MarksKept.arrangementChange _ _).trans (.surveyTest _))
    · exact out
  · exact .refl s

theorem MarksKept.surveyRest (s : State) (r : Radio) : MarksKept s (s.surveyRest r) := by
  unfold State.surveyRest
  split
  · exact .setSurvey s r _
  · exact .setSurvey s r _
  all_goals
    dsimp only
    split
    · exact (MarksKept.fields s Scheduler.loadPause).trans (.setSurvey _ r _)
    · exact (MarksKept.fields s Scheduler.loadPause).trans (.fields _ _)

/-- The mode orders no survey of the radio, which is DUE (R75, R77). -/
def State.Spared (s : State) (r : Radio) : Prop :=
  s.surveyOf r = .due ∧ s.effMode ≠ .continuous ∧ (s.effMode = .once → s.survey.owed.get r = false)

theorem State.Spared.unwanted (h : s.Spared r) : s.surveyWanted r = false := by
  rw [← Bool.not_eq_true, surveyWanted_iff]
  rintro ⟨continuous | ⟨once, owes⟩, -⟩
  · exact h.2.1 continuous
  · rw [h.2.2 once] at owes
    cases owes

theorem State.Spared.of (h : s.Spared r) (due : t.surveyOf r = .due) (round : RoundKept s t) (supply : t.supply = s.supply) :
    t.Spared r := by
  refine ⟨due, ?_, ?_⟩
  · rw [effMode_of round.mode supply]
    exact h.2.1
  · rw [effMode_of round.mode supply, round.owed]
    exact h.2.2

theorem State.Spared.surveyTest (h : s.Spared r) : s.surveyTest.Spared r :=
  h.of (((s.surveyTest_surveyOf r).resolve_right fun k => by rw [h.unwanted] at k; cases k.1).trans h.1)
    (RoundKept.surveyTest s) s.surveyTest_quiet.inner.same.supply

theorem State.Spared.snoozeTest (h : s.Spared r) (b : Bool) : (s.snoozeTest b).Spared r := by
  refine State.snoozeTest_chain (P := fun x => x.Spared r) (fun x q k => ?_) (fun x q a k => ?_) (fun x k => k.surveyTest) s b h
  · refine k.of ?_ (SurveyKept.dropSurvey (r := r) x q).round (x.dropSurvey_quiet q).inner.same.supply
    rw [State.dropSurvey_surveyOf]
    split
    · rfl
    · exact k.1
  · have survey := enqueue_survey x q (.power a)
    refine k.of ((surveyOf_of survey r).trans k.1) ⟨?_, ?_, ?_⟩ (x.enqueue_quiet q _).inner.same.supply <;> rw [survey]

/-- The pause that is loaded as a survey ends (R75, R83). -/
def State.nextPause (s : State) : Pause :=
  ⟨effectivePause (s.survey.pausePreload.getD s.survey.pause) s.supply.condition * 1000, s.effMode == .paused⟩

/-- How a radio rests under CONTINUOUS and PAUSED (R82, R83). -/
theorem State.surveyRest_waits (on : s.effMode = .continuous ∨ s.effMode = .paused) :
    (s.surveyRest r).survey.pause = s.survey.pausePreload.getD s.survey.pause
    ∧ (s.surveyRest r).survey.pausePreload = none ∧ (s.surveyRest r).survey.mode = s.survey.mode
    ∧ (s.effArrangement = .parallel → (s.surveyRest r).surveyOf r = .waiting (some s.nextPause))
    ∧ (s.effArrangement = .alternate → (s.surveyRest r).surveyOf r = .waiting none
        ∧ (s.surveyRest r).survey.shared = some s.nextPause) := by
  have loaded : s.surveyRest r = (match s.effArrangement with
      | .parallel => (s.mapSurvey Scheduler.loadPause).setSurvey r (.waiting (some s.nextPause))
      | .alternate => (s.mapSurvey Scheduler.loadPause).mapSurvey (·.restShared r s.nextPause)) := by
    unfold State.surveyRest
    rcases on with on | on <;> rw [on] <;> unfold State.nextPause <;> rw [on] <;> rfl
  rw [loaded]
  cases s.effArrangement with
  | parallel =>
    have rest := setSurvey_rest (s.mapSurvey Scheduler.loadPause) r (.waiting (some s.nextPause))
    refine ⟨(congrArg Scheduler.pause rest : _), (congrArg Scheduler.pausePreload rest : _), (congrArg Scheduler.mode rest : _),
      fun _ => ?_, fun no => nomatch no⟩
    show ((s.mapSurvey Scheduler.loadPause).setSurvey r _).surveyOf r = _
    rw [setSurvey_surveyOf, if_pos rfl]
  | alternate =>
    refine ⟨rfl, rfl, rfl, fun no => (nomatch no), fun _ => ⟨?_, rfl⟩⟩
    show ((s.survey.loadPause).restShared r s.nextPause).states.get r = _
    rw [Scheduler.restShared_get]
    simp

end

/-! ### The end of a running survey (R80 to R83) -/

section
variable {s : State} {r : Radio}

/-- The state once a SURVEYING radio has returned to READY at its survey's end. -/
def State.scanned (s : State) (r : Radio) : State := (s.surveyEndFirst r true).readied r

theorem State.surveyEndFirst_state (s : State) (r q : Radio) (b : Bool) :
    ((s.surveyEndFirst r b).radio q).state = (s.radio q).state :=
  (State.surveyEndFirst_schedules (e := NoneEnds) s r b).quiet.state q

theorem State.finishSurvey_surveying (surveying : (s.radio r).state = .surveying) : s.finishSurvey r
    = ((((s.scanned r).callEvent r).surveyEndRest r).post .radio).snoozeTest false := by
  unfold State.finishSurvey
  dsimp only
  rw [if_pos ((s.surveyEndFirst_state r r true).trans surveying)]
  rfl

theorem State.finishSurvey_idle (other : (s.radio r).state ≠ .surveying) :
    s.finishSurvey r = (s.surveyEndFirst r true).surveyEndRest r := by
  unfold State.finishSurvey
  dsimp only
  rw [if_neg (by rw [State.surveyEndFirst_state]; exact other)]

theorem State.finishSurvey_stopped (s : State) (r : Radio) : ∀ u w x, (s.finishSurvey r).surveyOf r ≠ .running u w x := by
  refine (SurveyState.isRunning_eq_false _).1 ?_
  by_cases surveying : (s.radio r).state = .surveying
  · rw [State.finishSurvey_surveying surveying]
    refine (State.snoozeTest_tends (e := NoneEnds) _ false).stopped ?_
    rw [surveyOf_of (State.post_survey _ _)]
    exact State.surveyEndRest_stopped _ r
  · rw [State.finishSurvey_idle surveying]
    exact State.surveyEndRest_stopped _ r

theorem State.scanned_state (s : State) (r : Radio) : ((s.scanned r).radio r).state = .ready := by
  unfold State.scanned
  rw [State.readied_radio, if_pos rfl]
  rfl

theorem State.scanned_call (s : State) (r : Radio) : (s.scanned r).call = s.call :=
  (State.readied_call _ r).trans (State.surveyEndFirst_schedules (e := NoneEnds) s r true).quiet.call

theorem State.scanned_journal (s : State) (r : Radio) : (s.scanned r).journal = s.journal :=
  ((State.readied_around _ r).journal.trans (State.setRadioState_journal _ r _)).trans
    (State.surveyEndFirst_schedules (e := NoneEnds) s r true).quiet.journal

theorem State.scanned_settings (s : State) (r : Radio) : (s.scanned r).supply = s.supply ∧ (s.scanned r).profile = s.profile := by
  have same := (State.surveyEndFirst_schedules (e := NoneEnds) s r true).quiet.inner.same
  exact ⟨((State.readied_around _ r).supply.trans (State.setRadioState_supply _ r _)).trans same.supply,
    ((State.readied_around _ r).profile.trans (State.setRadioState_profile _ r _)).trans same.profile⟩

/-- The scheduler once a survey has been counted (R82). -/
theorem State.scanned_survey (s : State) (r : Radio) :
    (s.scanned r).survey = ((s.mapSurvey fun c => { c with last := some r }).leaveOwed r).survey := State.readied_survey _ r

theorem State.scanned_marks (s : State) (r : Radio) :
    (s.scanned r).survey.last = some r ∧ (s.scanned r).survey.urgent = s.survey.urgent := by
  have marks := MarksKept.leaveOwed (s.mapSurvey fun c => { c with last := some r }) r
  rw [State.scanned_survey]
  exact ⟨marks.last, marks.urgent⟩

theorem State.scanned_same (s : State) (r : Radio) (mode : s.survey.mode ≠ .once) :
    (s.scanned r).survey = { s.survey with last := some r } := by
  rw [State.scanned_survey]
  unfold State.leaveOwed
  rw [if_neg fun h => mode h.1]
  rfl

/-- The ONCE round as a radio leaves it (R74). -/
theorem State.leaveOwed_once (once : s.survey.mode = .once) : (s.leaveOwed r).survey.owed.get r = false
    ∧ ((s.leaveOwed r).survey.mode = .once ∨ (s.leaveOwed r).survey.mode = .off)
    ∧ (s.survey.owed.get r = true → s.survey.owed.get (otherRadio r) = false →
        (s.leaveOwed r).survey.mode = .off ∧ (s.leaveOwed r).survey.onceDone = true) := by
  refine ⟨State.leaveOwed_owed r once, ?_⟩
  have round (x : State) : RoundKept (x.mapSurvey fun c => { c with mode := .off, onceDone := true }) x.roundComplete :=
    (State.modeChange_round _ _).trans ((State.arrangementChange_round _ _).trans (RoundKept.surveyTest _))
  unfold State.leaveOwed
  split
  · dsimp only
    split
    · exact ⟨.inr (round _).mode, fun _ _ => ⟨(round _).mode, (round _).once⟩⟩
    · next more =>
      refine ⟨.inl once, fun owes other => absurd ?_ more⟩
      show s.survey.owed.set r false = _
      generalize s.survey.owed = owed at owes other
      obtain ⟨a, b⟩ := owed
      cases r
      · exact congrArg (PerRadio.mk false) other
      · exact congrArg (PerRadio.mk · false) other
  · next out => exact ⟨.inl once, fun owes _ => absurd ⟨once, owes⟩ out⟩

end

/-- What the end of a survey leaves with the call IDLE and no urgent request. -/
theorem State.finishSurvey_rests {h : State} {r : Radio} (idle : h.call.state = .idle) (calm : h.survey.urgent = false)
    (surveying : (h.radio r).state = .surveying) :
    Around (h.scanned r) (h.finishSurvey r) ∧ ((h.finishSurvey r).port .station).pending.radio = true
    ∧ MarksKept (h.scanned r) (h.finishSurvey r)
    ∧ RoundKept (h.scanned r) (h.finishSurvey r)
    ∧ SurveyKept r ((h.scanned r).surveyRest r) (h.finishSurvey r)
    ∧ (((h.scanned r).surveyRest r).Spared r → (h.finishSurvey r).Spared r) := by
  have deaf : (h.scanned r).callEvent r = h.scanned r := by
    have call := h.scanned_call r
    refine State.callEvent_deaf r ?_ ?_ ?_ <;> rw [call, idle] <;> decide
  have ready := h.scanned_state r
  have rest : (h.scanned r).surveyEndRest r = ((h.scanned r).surveyRest r).surveyTest := by
    unfold State.surveyEndRest
    rw [(h.scanned_marks r).2, calm, ready]
    rfl
  have eq : h.finishSurvey r = ((((h.scanned r).surveyRest r).surveyTest).post .radio).snoozeTest false := by
    rw [State.finishSurvey_surveying surveying, deaf, rest]
  have schedules : Schedules (fun _ => True) (h.scanned r) ((h.scanned r).surveyRest r) :=
    State.surveyRest_schedules _ r (.inl trivial)
  have posted : MarksKept (((h.scanned r).surveyRest r).surveyTest) ((((h.scanned r).surveyRest r).surveyTest).post .radio) :=
    .of_survey (State.post_survey _ _)
  rw [eq]
  refine ⟨?_, ?_, ?_, ?_, ?_, fun spared => ?_⟩
  · exact (schedules.quiet.trans ((State.surveyTest_quiet _).trans
      ((State.post_quiet _ _).trans (State.snoozeTest_quiet _ false)))).around
  · exact (Tends.station (State.snoozeTest_tends (e := NoneEnds) _ false) .radio).trans (State.post_posted _ .radio)
  · exact (MarksKept.surveyRest _ r).trans ((MarksKept.surveyTest _).trans (posted.trans (.snoozeTest _ false)))
  · refine (RoundKept.surveyRest _ r).trans ((RoundKept.surveyTest _).trans (RoundKept.trans ?_ (RoundKept.snoozeTest _ false)))
    constructor <;> rw [State.post_survey]
  · exact (SurveyKept.surveyTest _).trans ((SurveyKept.of (State.post_survey _ _)).trans (SurveyKept.snoozeTest _ false))
  · refine State.Spared.snoozeTest ?_ false
    refine spared.surveyTest.of ((surveyOf_of (State.post_survey _ _) r).trans spared.surveyTest.1) ?_ (State.post_supply _ _)
    constructor <;> rw [State.post_survey]

/-- Settles O34: a survey that runs ends by its rests, by the set mode. -/
theorem surveyEnds : Obligations.SurveyEnds := by
  unfold Obligations.SurveyEnds
  intro ended
  have still {s : State} {r : Radio} (h : ∀ u w x, s.surveyOf r ≠ .running u w x) : (s.surveyOf r).isRunning = false :=
    (SurveyState.isRunning_eq_false _).2 h
  have running {s : State} {r : Radio} {u : Bool} {w x : Nat} (h : s.surveyOf r = .running u w x) :
      (s.surveyOf r).isRunning = true := (SurveyState.isRunning_iff _).2 ⟨u, w, x, h⟩
  have ends (h : State) (r : Radio) : ended r h (h.finishSurvey r) := by
    refine ⟨h.finishSurvey_stopped r, fun idle calm surveying => ?_⟩
    obtain ⟨around, posted, marks, round, kept, sparing⟩ := State.finishSurvey_rests idle calm surveying
    obtain ⟨supply, profile⟩ := h.scanned_settings r
    refine ⟨(around.state r).trans (h.scanned_state r), marks.last.trans (h.scanned_marks r).1,
      around.call.trans (h.scanned_call r), around.journal.trans (h.scanned_journal r), posted, fun mode => ?_, fun off => ?_,
      fun once => ?_⟩
    · have same := h.scanned_same r (by rcases mode with m | m <;> rw [m] <;> decide)
      have eff : (h.scanned r).effMode = .continuous ∨ (h.scanned r).effMode = .paused := by
        rw [effMode_eq, same]
        split
        · exact .inr rfl
        · exact mode
      have pause : (h.scanned r).nextPause = ⟨(if h.supply.condition = .normal then h.survey.pausePreload.getD h.survey.pause
          else min 3600 (2 * h.survey.pausePreload.getD h.survey.pause)) * 1000,
          decide (h.survey.mode = .paused ∨ h.supply.condition = .critical)⟩ := by
        unfold State.nextPause
        rw [effMode_eq, same, supply]
        rcases mode with m | m <;> cases h.supply.condition <;> simp [m, effectivePause, Config.maxPause]
      obtain ⟨inForce, preload, kind, parallel, alternate⟩ := State.surveyRest_waits (r := r) eff
      rw [pause] at parallel alternate
      rw [effArrangement_eq, supply, profile] at parallel alternate
      refine ⟨kept.pause.trans (inForce.trans (by rw [same])), kept.preload.trans preload,
        kept.mode.trans (kind.trans (by rw [same])), fun normal arrangement => ?_, fun other => ?_⟩
      · have waits := parallel (by rw [if_pos normal, arrangement])
        exact (kept.wait (by rw [waits]; rfl)).1.trans waits
      · have waits := alternate (by
          split
          · next normal => exact other.resolve_left fun no => no normal
          · rfl)
        have keeps := kept.wait (by rw [waits.1]; rfl)
        exact ⟨keeps.1.trans waits.1, keeps.2.trans waits.2⟩
    · have same := h.scanned_same r (by rw [off]; decide)
      have eff : (h.scanned r).effMode = .off := by rw [effMode_eq, same, off]; simp
      have rest : (h.scanned r).surveyRest r = (h.scanned r).setSurvey r .due := by
        unfold State.surveyRest
        rw [eff]
      refine (sparing ?_).1
      rw [rest]
      have mode : ((h.scanned r).setSurvey r .due).effMode = .off :=
        (effMode_of (RoundKept.setSurvey (r := r) (h.scanned r) .due).mode rfl).trans eff
      exact ⟨by rw [setSurvey_surveyOf, if_pos rfl], by rw [mode]; decide, fun no => by rw [mode] at no; cases no⟩
    · obtain ⟨owed, mode, last⟩ := State.leaveOwed_once (s := h.mapSurvey fun c => { c with last := some r }) (r := r) once
      rw [← State.scanned_survey] at owed mode last
      refine ⟨by rw [round.owed]; exact owed, fun critical => ?_, fun owes other => ?_⟩
      · have eff : (h.scanned r).effMode = .once ∨ (h.scanned r).effMode = .off := by
          rw [effMode_set (.inl (by rw [supply]; exact critical))]
          exact mode
        have rest : (h.scanned r).surveyRest r = (h.scanned r).setSurvey r .due := by
          unfold State.surveyRest
          rcases eff with e | e <;> rw [e]
        refine (sparing ?_).1
        rw [rest]
        have keeps := RoundKept.setSurvey (r := r) (h.scanned r) .due
        have same : ((h.scanned r).setSurvey r .due).effMode = (h.scanned r).effMode := effMode_of keeps.mode rfl
        exact ⟨by rw [setSurvey_surveyOf, if_pos rfl], by rw [same]; rcases eff with e | e <;> rw [e] <;> decide,
          fun _ => by rw [keeps.owed]; exact owed⟩
      · obtain ⟨off, done⟩ := last owes other
        exact ⟨round.mode.trans off, round.once.trans done⟩
  refine ⟨fun s r speaks => ⟨fun none => ?_, fun u w x runs => ⟨_, ?_, ends _ r⟩⟩,
    fun s r reset => ⟨fun none => ?_, fun u w x runs => ⟨_, ?_, ends s r⟩⟩⟩
  · refine State.next_radio (f := fun r s => s.surveyDoneRequest r) speaks ?_
    unfold State.surveyDoneRequest
    rw [still none]
    rfl
  · refine State.next_radio (f := fun r s => s.surveyDoneRequest r) speaks ?_
    unfold State.surveyDoneRequest
    rw [running runs]
    rfl
  · refine State.next_event reset ?_
    unfold State.windowExpired
    rw [still none]
    rfl
  · refine State.next_event reset ?_
    unfold State.windowExpired
    rw [running runs]
    rfl

end Sys2Proof.Machine
end

section
/-! PROOFS. Cell reports (O43, O45, O46): the checks of a report, the slot that takes it, and what its handling leaves
(R2 to R4, R15, R18, R23 to R31, R59). -/

namespace Sys2Proof.Machine

/-! ### The checks (R24 to R27) -/

section
variable {c : RadioContext} {x : RawReport}

theorem identityPlausible_iff : identityPlausible c.generations x = true ↔ namesCell c x := by
  unfold identityPlausible namesCell
  simp only [Bool.and_eq_true, decide_eq_true_iff, Option.any_eq_true, and_assoc]

theorem clampLevel_eq (l : Int) : clampLevel l = max (-140) (min (-44) l) := by
  unfold clampLevel
  rw [max_min_distrib_left, max_eq_right (by decide : (-140 : Int) ≤ -44)]

theorem clampLevel_mends : (if clampLevel x.level = x.level then 0 else 1) = levelMends x := by
  unfold levelMends
  refine if_congr ?_ rfl rfl
  unfold clampLevel
  constructor
  · exact fun same => ⟨same ▸ le_min (by decide) (le_max_left _ _), same ▸ min_le_left _ _⟩
  · exact fun ⟨low, high⟩ => by rw [max_eq_right low, min_eq_right high]

theorem checkReport_unnamed (h : ¬ namesCell c x) : checkReport c.generations x = (.dropped .implausible, 0) := by
  unfold checkReport
  rw [if_pos (by simpa [← identityPlausible_iff] using h)]

theorem checkReport_level (h : namesCell c x) (range : x.level < -200 ∨ 0 < x.level) :
    checkReport c.generations x = (.dropped .implausible, 0) := by
  unfold checkReport
  rw [identityPlausible_iff.2 h, if_neg (by decide), if_pos (by simpa using range)]

/-- The checks of a named cell's report whose level is in range. -/
theorem checkReport_ranged (h : namesCell c x) (low : -200 ≤ x.level) (high : x.level ≤ 0) :
    checkReport c.generations x =
      if 100 ≤ x.quality then (.dropped .implausible, levelMends x)
      else if contradictory (mendedLevel x) (clampQuality x.quality) then (.dropped .contradictory, mends x)
      else (.passed ⟨x.network, x.generation, x.cell, x.channel, mendedLevel x, clampQuality x.quality⟩, mends x) := by
  have clamps : (if 32 ≤ x.quality ∧ x.quality ≤ 98 then (if clampLevel x.level = x.level then 0 else 1) + 1
      else if clampLevel x.level = x.level then 0 else 1) = mends x := by
    rw [clampLevel_mends]
    unfold mends
    split <;> rfl
  unfold checkReport
  rw [identityPlausible_iff.2 h, if_neg (by decide), if_neg (by simp; omega)]
  dsimp only
  rw [clamps, clampLevel_mends, clampLevel_eq]
  rfl

theorem contradictory_iff (l : Int) (q : Nat) :
    contradictory (max (-140) (min (-44) l)) (clampQuality q) = true ↔ l ≤ -140 ∧ 20 ≤ q ∧ q ≠ 99 := by
  unfold contradictory clampQuality
  split
  · next h => simp [h]
  · next some =>
    have level : max (-140) (min (-44) l) = -140 ↔ l ≤ -140 := by
      rw [max_eq_left_iff, min_le_iff]
      exact or_iff_right (by decide)
    have quality : 20 ≤ min 31 q ↔ 20 ≤ q := by
      rw [le_min_iff]
      exact and_iff_right (by decide)
    rw [Bool.and_eq_true, beq_iff_eq, Option.any_some, decide_eq_true_iff, level, quality]
    exact and_congr_right' (iff_self_and.2 fun _ => some)

theorem checkReport_quality (h : namesCell c x) (low : -200 ≤ x.level) (high : x.level ≤ 0) (bad : 100 ≤ x.quality) :
    checkReport c.generations x = (.dropped .implausible, levelMends x) := by
  rw [checkReport_ranged h low high, if_pos bad]

theorem checkReport_contradictory (h : namesCell c x) (low : -200 ≤ x.level) (high : x.level ≤ -140)
    (some : 20 ≤ x.quality) (good : x.quality ≤ 98) : checkReport c.generations x = (.dropped .contradictory, mends x) := by
  rw [checkReport_ranged h low (by omega), if_neg (by omega), if_pos]
  exact (contradictory_iff x.level x.quality).2 ⟨high, some, by omega⟩

/-- A report as it stands once it has passed the checks. -/
def checkedOf (x : RawReport) : Checked :=
  ⟨x.network, x.generation, x.cell, x.channel, mendedLevel x, mendedQuality x⟩

theorem checkReport_passed (h : passesChecks c x) : checkReport c.generations x = (.passed (checkedOf x), mends x) := by
  obtain ⟨named, low, high, quality, agree⟩ := h
  rw [checkReport_ranged named low high, if_neg (by omega), if_neg]
  · rfl
  · show ¬ contradictory (max (-140) (min (-44) x.level)) (clampQuality x.quality) = true
    rw [contradictory_iff]
    rintro ⟨bottom, some, known⟩
    have := agree bottom
    omega

end

/-! ### The handling of a report (R23, R28, R59) -/

section
variable {s u : State} {r : Radio} {x : RawReport}

/-- The state once a report has met the table and been counted. -/
def State.counted (s : State) (r : Radio) (o : ReportOutcome) (n : Nat) : State :=
  s.mapRadio r fun c => { c with counts := c.counts.add o n }

theorem State.takeReport_dropped {o : ReportOutcome} {n : Nat}
    (h : checkReport (s.radio r).generations x = (.dropped o, n)) : s.takeReport r x = (s.counted r o n, o, n != 0) := by
  unfold State.takeReport
  rw [h]
  rfl

theorem State.takeReport_passed {c : Checked} {n : Nat} {o : ReportOutcome} {joined : Bool}
    (h : checkReport (s.radio r).generations x = (.passed c, n)) (meets : s.meetTable r c = (u, o, joined)) :
    s.takeReport r x = (if joined then (u.counted r o n).callEvent r else u.counted r o n, o, n != 0) := by
  unfold State.takeReport
  rw [h]
  simp only [meets]
  rfl

/-- A request of one report. -/
theorem State.answers_of {t : State} {o : ReportOutcome} {n : Nat} (speaks : s.Speaks r) (takes : s.takesReports r)
    (h : (s.heardOn r).takeReport r x = (t, o, n != 0)) : s.Answers r x o n t := by
  have live := State.heard_live (s := s.opened (.radio r)) (r := r) (by rw [State.opened_radio]; exact speaks.2.2)
  refine State.next_radio (f := fun r s => s.cellRequest r 1 [x]) speaks ?_
  have one : (s.heardOn r).takeReports r [x] = (t, [(o, decide (n ≠ 0))]) := by
    unfold State.takeReports
    rw [h]
    cases n <;> rfl
  unfold State.cellRequest
  rw [if_pos (by decide), one]
  cases state : ((s.heardOn r).radio r).state <;> first
    | rfl
    | exact absurd state takes.1
    | exact absurd state takes.2
    | exact absurd state live.1
    | exact absurd state live.2

/-- The reach table has handled the report, and the radio's counts have risen. -/
theorem State.counted_tabled (tables : Tables s u) (timers : { u.table with slots := s.table.slots } = s.table) {n : Nat}
    {o : ReportOutcome} {c : IntakeCounts}
    (counts : (s.radio r).counts.add o n = { c with clamped := min 65535 (c.clamped + n) }) :
    s.Tabled r n c (u.counted r o n) := by
  refine ⟨?_, ?_, ?_, ?_, timers⟩
  · unfold State.counted
    rw [State.radio_mapRadio, if_pos rfl, tables.radio, counts]
  · unfold State.counted
    rw [State.radio_mapRadio, if_neg (otherRadio_ne r), tables.radio]
  · exact (congrArg (fun x : State => { x with radios := s.radios }) tables.rest : _)
  · exact tables.ports.trans (.of_ports rfl _)

theorem State.counted_entry (o : ReportOutcome) (n i : Nat) : (s.counted r o n).entry i = s.entry i := rfl

/-- A report that is dropped by the checks changes the intake counts alone. -/
theorem State.reported_dropped {o : ReportOutcome} {n : Nat} {c : IntakeCounts} (speaks : s.Speaks r) (takes : s.takesReports r)
    (h : checkReport ((s.heardOn r).radio r).generations x = (.dropped o, n))
    (counts : ((s.heardOn r).radio r).counts.add o n = { c with clamped := min 65535 (c.clamped + n) }) :
    ∃ t : State, s.Reported r x o n c t ∧ t.table = (s.heardOn r).table :=
  ⟨_, ⟨State.answers_of speaks takes (State.takeReport_dropped h), State.counted_tabled (.refl _) rfl counts⟩, rfl⟩

/-- A report that passes and joins no list. -/
theorem State.reported_passed {o : ReportOutcome} {n : Nat} {c : IntakeCounts} {v : Checked} (speaks : s.Speaks r)
    (takes : s.takesReports r) (h : checkReport ((s.heardOn r).radio r).generations x = (.passed v, n))
    (meets : (s.heardOn r).meetTable r v = (u, o, false)) (tables : Tables (s.heardOn r) u)
    (timers : { u.table with slots := (s.heardOn r).table.slots } = (s.heardOn r).table)
    (counts : ((s.heardOn r).radio r).counts.add o n = { c with clamped := min 65535 (c.clamped + n) }) :
    s.Reported r x o n c (u.counted r o n) :=
  ⟨State.answers_of speaks takes (State.takeReport_passed h meets), State.counted_tabled tables timers counts⟩

/-- A report that passes and whose entry joins the ranked list. -/
theorem State.joins_of {n : Nat} {c : IntakeCounts} {v : Checked} (speaks : s.Speaks r)
    (takes : s.takesReports r) (h : checkReport ((s.heardOn r).radio r).generations x = (.passed v, n))
    (meets : (s.heardOn r).meetTable r v = (u, .taken, true)) (tables : Tables (s.heardOn r) u)
    (timers : { u.table with slots := (s.heardOn r).table.slots } = (s.heardOn r).table)
    (counts : ((s.heardOn r).radio r).counts.add .taken n = { c with clamped := min 65535 (c.clamped + n) }) :
    s.Joins r x n c (u.counted r .taken n) :=
  ⟨_, State.answers_of speaks takes (State.takeReport_passed h meets), State.counted_tabled tables timers counts,
    State.callEvent_walks _ r, fun no => State.callEvent_noSelection no⟩

end

theorem State.takeReports_append (s : State) (r : Radio) (l m : List RawReport) :
    s.takeReports r (l ++ m)
      = (((s.takeReports r l).1.takeReports r m).1, (s.takeReports r l).2 ++ ((s.takeReports r l).1.takeReports r m).2) := by
  induction l generalizing s with
  | nil => rfl
  | cons x l ih =>
    show ((((s.takeReport r x).1.takeReports r (l ++ m)).1, _ :: ((s.takeReport r x).1.takeReports r (l ++ m)).2) :
      State × List (ReportOutcome × Bool)) = _
    rw [ih]
    rfl

theorem State.takeReports_length (s : State) (r : Radio) (l : List RawReport) : (s.takeReports r l).2.length = l.length := by
  induction l generalizing s with
  | nil => rfl
  | cons x l ih => exact congrArg (· + 1) (ih (s.takeReport r x).1)

/-- Settles O43. -/
theorem cellReportChecks : Obligations.CellReportChecks := by
  refine ⟨fun s r count reports speaks => ?_, fun s r x speaks takes => ?_⟩
  · have request {t : State} {x : Response} (eq : (s.heardOn r).cellRequest r count reports = (t, x)) :
        exec (.cellReport (.radio r) count reports) s = .next (t.answered (.radio r) x) :=
      State.next_radio (f := fun r s => s.cellRequest r count reports) speaks eq
    have live := State.heard_live (s := s.opened (.radio r)) (r := r) (by rw [State.opened_radio]; exact speaks.2.2)
    refine ⟨fun bad => request ?_, fun low high deaf => request ?_, fun low high takes => ⟨request ?_,
      State.takeReports_length _ r _, ?_⟩⟩
    · unfold State.cellRequest
      rw [if_neg (by omega)]
      rfl
    · unfold State.cellRequest
      rw [if_pos ⟨low, high⟩]
      rcases deaf with h | h <;> rw [h] <;> rfl
    · unfold State.cellRequest
      rw [if_pos ⟨low, high⟩]
      cases state : ((s.heardOn r).radio r).state <;> first
        | rfl
        | exact absurd state takes.1
        | exact absurd state takes.2
        | exact absurd state live.1
        | exact absurd state live.2
    · rintro l m rfl
      exact State.takeReports_append _ r l m
  · exact ⟨fun unnamed => State.reported_dropped speaks takes (checkReport_unnamed unnamed) rfl,
      fun named range => State.reported_dropped speaks takes (checkReport_level named range) rfl,
      fun named low high bad => State.reported_dropped speaks takes (checkReport_quality named low high bad) rfl,
      fun named low high some good => State.reported_dropped speaks takes (checkReport_contradictory named low high some good) rfl⟩

/-! ### Slots as the statements count them (R3, R15, R18) -/

section
variable {t : Slots}

/-- The slots are the contents of the numbers 0 to 47. -/
theorem slots_eq (t : Slots) : t.toList = (List.range 48).map (slotAt t) := by
  refine List.ext_getElem (by simp) fun i h _ => ?_
  have lt : i < 48 := by simpa using h
  simp only [List.getElem_map, List.getElem_range, slotAt]
  rw [List.getElem?_eq_getElem h]
  rfl

theorem countP_slots (t : Slots) (p : Option Entry → Bool) :
    t.toList.countP p = ((List.range 48).filter fun i => p (slotAt t i)).length := by
  rw [slots_eq, List.countP_map, List.countP_eq_length_filter]
  rfl

theorem slotAt_lt {i : Nat} {e : Entry} (h : slotAt t i = some e) : i < 48 := by
  by_contra high
  unfold slotAt at h
  rw [List.getElem?_eq_none (by simpa using high)] at h
  cases h

theorem freeSlot_of {i : Nat} (lt : i < 48) (free : slotAt t i = none) (first : ∀ j, j < i → slotAt t j ≠ none) :
    freeSlot t = some i := by
  unfold freeSlot
  rw [slots_eq, List.findIdx?_eq_some_iff_getElem]
  refine ⟨by simpa using lt, by simp [free], fun j less => ?_⟩
  simpa using first j less

theorem freeSlot_none (full : ∀ j, j < 48 → slotAt t j ≠ none) : freeSlot t = none := by
  unfold freeSlot
  rw [slots_eq, List.findIdx?_eq_none_iff]
  intro x hx
  obtain ⟨i, hi, rfl⟩ := List.mem_map.1 hx
  cases h : slotAt t i with
  | none => exact absurd h (full i (List.mem_range.1 hi))
  | some e => rfl

theorem occupiedSlots_sorted (t : Slots) : (occupiedSlots t).Pairwise fun x y => x.1 < y.1 := by
  have numbers : t.toList.zipIdx.Pairwise fun x y => x.2 < y.2 :=
    List.pairwise_map.1 (by rw [List.zipIdx_map_snd]; exact List.pairwise_lt_range')
  refine numbers.filterMap _ fun x y lt a ha b hb => ?_
  obtain ⟨e, _, rfl⟩ := Option.map_eq_some_iff.1 ha
  obtain ⟨f, _, rfl⟩ := Option.map_eq_some_iff.1 hb
  exact lt

/-- In slot order, what a test finds is the lowest slot that it takes. -/
theorem find?_lowest {l : List (Nat × Entry)} (sorted : l.Pairwise fun x y => x.1 < y.1) {P : Nat × Entry → Bool}
    {x : Nat × Entry} (mem : x ∈ l) (taken : P x = true) (first : ∀ y ∈ l, y.1 < x.1 → P y = false) : l.find? P = some x := by
  induction l with
  | nil => cases mem
  | cons y l ih =>
    obtain ⟨before, sorted⟩ := List.pairwise_cons.1 sorted
    rcases List.mem_cons.1 mem with rfl | mem
    · exact List.find?_cons_of_pos taken
    · rw [List.find?_cons_of_neg (by rw [first y (by simp) (before x mem)]; decide)]
      exact ih sorted mem fun z hz => first z (List.mem_cons_of_mem _ hz)

/-- Of the entries in slot order the victim rule keeps the one of lowest score, the later slot on equal scores (R15). -/
theorem foldl_weaker {l : List (Nat × Entry)} {y x : Nat × Entry} (sorted : (y :: l).Pairwise fun x y => x.1 < y.1)
    (mem : x ∈ y :: l)
    (least : ∀ z ∈ y :: l, z = x ∨ x.2.score < z.2.score ∨ (x.2.score = z.2.score ∧ z.1 < x.1)) : l.foldl weaker y = x := by
  induction l generalizing y with
  | nil => exact (List.mem_singleton.1 mem).symm
  | cons z l ih =>
    obtain ⟨before, rest⟩ := List.pairwise_cons.1 sorted
    obtain ⟨later, tail⟩ := List.pairwise_cons.1 rest
    have yz := before z (by simp)
    rw [List.foldl_cons]
    have sortedY : (y :: l).Pairwise fun x y => x.1 < y.1 :=
      List.pairwise_cons.2 ⟨fun w hw => before w (List.mem_cons_of_mem _ hw), tail⟩
    have leastZ := least z (by simp)
    have leastY := least y (by simp)
    have rests (w : Nat × Entry) (hw : w ∈ l) := least w (List.mem_cons_of_mem _ (List.mem_cons_of_mem _ hw))
    unfold weaker
    split
    · next loses =>
      refine ih rest ?_ fun w hw => (List.mem_cons.1 hw).elim (fun h => h ▸ leastZ) (rests w)
      rcases List.mem_cons.1 mem with rfl | mem
      · rcases leastZ with rfl | lt | ⟨-, lt⟩
        · exact List.mem_cons_self
        · omega
        · omega
      · exact mem
    · next wins =>
      refine ih sortedY ?_ fun w hw => (List.mem_cons.1 hw).elim (fun h => h ▸ leastY) (rests w)
      rcases List.mem_cons.1 mem with rfl | mem
      · exact List.mem_cons_self
      · rcases List.mem_cons.1 mem with rfl | mem
        · rcases leastY with rfl | lt | ⟨same, -⟩
          · exact List.mem_cons_self
          · omega
          · omega
        · exact List.mem_cons_of_mem _ mem

/-- The entries that the victim rule may choose. -/
theorem mem_unpinned {x : Nat × Entry} :
    x ∈ (occupiedSlots t).filter (fun x => !x.2.pin) ↔ slotAt t x.1 = some x.2 ∧ x.2.pin = false := by
  rw [List.mem_filter, ← mem_occupiedSlots, Bool.not_eq_true']

theorem victim_none (pinned : ∀ j e, slotAt t j = some e → e.pin = true) : victim t = none := by
  have empty : (occupiedSlots t).filter (fun x => !x.2.pin) = [] := by
    refine List.eq_nil_iff_forall_not_mem.2 fun x hx => ?_
    obtain ⟨at_, free⟩ := mem_unpinned.1 hx
    rw [pinned _ _ at_] at free
    cases free
  unfold victim
  rw [empty]
  rfl

theorem victim_lost {i : Nat} {v : Entry} (at_ : slotAt t i = some v) (pin : v.pin = false) (lost : v.state = .lost)
    (first : ∀ j e, j < i → slotAt t j = some e → e.pin = true ∨ e.state ≠ .lost) : victim t = some (i, v) := by
  have found : ((occupiedSlots t).filter fun x => !x.2.pin).find? (fun x => x.2.state == .lost) = some (i, v) := by
    refine find?_lowest ((occupiedSlots_sorted t).filter _) (mem_unpinned.2 ⟨at_, pin⟩) (by simp [lost]) fun y hy less => ?_
    obtain ⟨aty, free⟩ := mem_unpinned.1 hy
    have other := (first y.1 y.2 less aty).resolve_left (by rw [free]; decide)
    simpa using other
  unfold victim
  dsimp only
  rw [found]

theorem victim_weakest {i : Nat} {v : Entry} (at_ : slotAt t i = some v) (pin : v.pin = false)
    (heard : ∀ j e, slotAt t j = some e → e.pin = true ∨ e.state ≠ .lost)
    (least : ∀ j e, j ≠ i → slotAt t j = some e → e.pin = true ∨ v.score < e.score ∨ (v.score = e.score ∧ j < i)) :
    victim t = some (i, v) := by
  have none : ((occupiedSlots t).filter fun x => !x.2.pin).find? (fun x => x.2.state == .lost) = none := by
    refine List.find?_eq_none.2 fun y hy => ?_
    obtain ⟨aty, free⟩ := mem_unpinned.1 hy
    have other := (heard y.1 y.2 aty).resolve_left (by rw [free]; decide)
    simpa using other
  unfold victim
  dsimp only
  rw [none]
  have mem := mem_unpinned.2 (show slotAt t (i, v).1 = some (i, v).2 ∧ (i, v).2.pin = false from ⟨at_, pin⟩)
  have sorted := (occupiedSlots_sorted t).filter fun x => !x.2.pin
  have all : ∀ y ∈ (occupiedSlots t).filter (fun x => !x.2.pin),
      y = (i, v) ∨ v.score < y.2.score ∨ (v.score = y.2.score ∧ y.1 < i) := by
    intro y hy
    obtain ⟨aty, free⟩ := mem_unpinned.1 hy
    by_cases same : y.1 = i
    · rw [same, at_] at aty
      exact .inl (Prod.ext same (Option.some.inj aty).symm)
    · exact .inr ((least y.1 y.2 same aty).resolve_left (by rw [free]; decide))
  revert mem sorted all
  cases (occupiedSlots t).filter fun x => !x.2.pin with
  | nil => exact fun mem => absurd mem (by simp)
  | cons y l => exact fun mem sorted all => congrArg some (foldl_weaker sorted mem all)

end

/-! ### A report meets the table (R2 to R4, R15, R18) -/

section
variable {h : State} {r : Radio} {x : Checked}

theorem boundInForce_iff : boundInForce h = true ↔ h.supply.condition = .critical
    ∧ 8 + ((List.range 48).filter fun i => (h.entry i).any (·.pin)).length
      ≤ ((List.range 48).filter fun i => (h.entry i).isSome).length := by
  unfold boundInForce occupiedCount pinnedCount Config.criticalKeep
  rw [Bool.and_eq_true, beq_iff_eq, decide_eq_true_iff, countP_slots, countP_slots]
  rfl

theorem findKey_of {i : Nat} {e : Entry} (at_ : h.entry i = some e) (key : e.key = (r, x.network, x.generation, x.cell))
    (one : ∀ j f, h.entry j = some f → f.key = e.key → j = i) : findKey h r x = some (i, e) := by
  cases found : findKey h r x with
  | none => exact absurd key (findKey_none found i e at_)
  | some y =>
    have aty : h.entry y.1 = some y.2 := findKey_some (i := y.1) (e := y.2) found
    have keyy := (sameKey_iff r x y.2).1 (List.find?_some (p := fun y : Nat × Entry => sameKey r x y.2) found)
    have same := one y.1 y.2 aty (keyy.trans key.symm)
    rw [same, at_] at aty
    exact congrArg some (Prod.ext same (Option.some.inj aty).symm)

theorem findKey_absent (absent : ∀ j e, h.entry j = some e → e.key ≠ (r, x.network, x.generation, x.cell)) :
    findKey h r x = none := by
  refine List.find?_eq_none.2 fun y hy same => ?_
  exact absent y.1 y.2 (mem_occupiedSlots.1 hy) ((sameKey_iff r x y.2).1 same)

/-- The entry of a slot once it has been filled. -/
theorem putSlot_entry (t : Slots) {i : Nat} (lt : i < 48) (y : Option Entry) (j : Nat) :
    ((h.setSlots (putSlot t i y)).entry j) = if j = i then y else slotAt t j := by
  rw [State.setSlots_entry, slotAt_putSlot]
  exact if_congr (and_iff_left lt) rfl rfl

theorem meetTable_known {i : Nat} {e : Entry} (found : findKey h r x = some (i, e)) : h.meetTable r x
    = (h.setSlots (putSlot h.table.slots i (some (e.takeReport h.profile x))), .taken, !e.isRanked) := by
  unfold State.meetTable
  rw [found]

theorem meetTable_free {i : Nat} (found : findKey h r x = none) (bound : boundInForce h = false)
    (free : freeSlot h.table.slots = some i) :
    h.meetTable r x = (h.setSlots (putSlot h.table.slots i (some (newcomer h r x))), .taken, true) := by
  unfold State.meetTable
  rw [found]
  dsimp only
  rw [bound, free]
  rfl

/-- No slot is FREE for a newcomer, or the CRITICAL bound is in force. -/
theorem freeSlot_bound (full : boundInForce h = true ∨ freeSlot h.table.slots = none) :
    (if boundInForce h = true then none else freeSlot h.table.slots) = none := by
  rcases full with k | k
  · rw [if_pos k]
  · rw [k, ite_self]

theorem meetTable_victim {i : Nat} {v : Entry} (found : findKey h r x = none)
    (full : boundInForce h = true ∨ freeSlot h.table.slots = none) (loser : victim h.table.slots = some (i, v))
    (better : v.score < (newcomer h r x).score) : h.meetTable r x
      = ((h.setSlots (putSlot h.table.slots i none)).setSlots
        (putSlot (h.setSlots (putSlot h.table.slots i none)).table.slots i (some (newcomer h r x))), .taken, true) := by
  unfold State.meetTable
  rw [found]
  dsimp only
  rw [freeSlot_bound full, loser]
  exact if_pos better

theorem meetTable_tableFull (found : findKey h r x = none)
    (full : boundInForce h = true ∨ freeSlot h.table.slots = none)
    (keeps : ∀ i v, victim h.table.slots = some (i, v) → ¬ v.score < (newcomer h r x).score) :
    h.meetTable r x = (h, .tableFull, false) := by
  unfold State.meetTable
  rw [found]
  dsimp only
  rw [freeSlot_bound full]
  cases loser : victim h.table.slots with
  | none => rfl
  | some y => exact if_neg (keeps y.1 y.2 loser)

theorem newcomer_eq : newcomer h r x = ⟨r, x.network, x.generation, x.cell, x.channel, 16 * x.level, x.quality, 1, 8,
    tierOf h.prefs x.network, .ranked .fresh, 0, none, false, scoreOf h.profile.biases ⟨r, x.network, x.generation, x.cell,
      x.channel, 16 * x.level, x.quality, 1, 8, tierOf h.prefs x.network, .ranked .fresh, 0, none, false, 0⟩⟩ := rfl

end

/-- A difference in level moves the level by its share, or by one step (R30). -/
theorem smooth_eq (k : Nat) (level m : Int) : smooth k level m = m + (if 16 * level - m = 0 then 0
    else if (16 * level - m).natAbs < 2 ^ k then (if 0 < 16 * level - m then 1 else -1) else (16 * level - m).tdiv (2 ^ k)) := by
  unfold smooth
  dsimp only
  generalize 16 * level - m = d
  have cast : ((2 ^ k : Nat) : Int) = 2 ^ k := by push_cast; rfl
  rw [cast]
  have pos : (0 : Int) < 2 ^ k := by positivity
  have zero : d.tdiv (2 ^ k) = 0 ↔ d.natAbs < 2 ^ k := by
    rw [← cast, ← Int.natAbs_eq_zero, Int.natAbs_tdiv, Int.natAbs_natCast]
    show d.natAbs / 2 ^ k = 0 ↔ _
    rw [Nat.div_eq_zero_iff]
    exact or_iff_right (by positivity)
  congr 1
  by_cases small : d.natAbs < 2 ^ k
  · rw [if_pos (zero.2 small), if_pos small]
    rcases lt_trichotomy d 0 with neg | rfl | positive
    · rw [Int.sign_eq_neg_one_of_neg neg, if_neg (by omega), if_neg (by omega)]
    · rfl
    · rw [Int.sign_eq_one_of_pos positive, if_neg (by omega), if_pos positive]
  · rw [if_neg fun h => small (zero.1 h), if_neg small, if_neg]
    rintro rfl
    exact small (by simp)

/-- A slot filled by a report is a change of the table alone. -/
theorem putSlot_tables (h : State) (i : Nat) (y : Option Entry) : Tables h (h.setSlots (putSlot h.table.slots i y))
    ∧ { (h.setSlots (putSlot h.table.slots i y)).table with slots := h.table.slots } = h.table := by
  refine ⟨h.setSlots_tables _, ?_⟩
  rw [State.setSlots_table]

/-- The tier of a newcomer (R41). -/
theorem tierOf_cases {l : Preferences} (sound : l.Sound) {n tier : Nat}
    (h : ((∀ j q, l.at j = some q → q.code ≠ n) ∧ tier = 1) ∨ ∃ j q, l.at j = some q ∧ q.code = n ∧ tier = q.tier) :
    tierOf l n = tier := by
  rcases h with ⟨absent, rfl⟩ | ⟨j, q, at_, rfl, rfl⟩
  · exact tierOf_of_absent absent
  · exact tierOf_of_at sound at_

/-- Settles O45: a report for a known cell by the state of its entry, and a newcomer with a FREE slot. -/
theorem cellReportTaken : Obligations.CellReportTaken := by
  intro s r x speaks takes
  dsimp only
  intro passes
  set h := s.heardOn r with hh
  have checks := checkReport_passed passes
  refine ⟨fun i e at_ key one few => ?_, fun i lt absent bound free first sound => ?_⟩
  · have lt : i < 48 := slotAt_lt at_
    have known := meetTable_known (findKey_of (x := checkedOf x) at_ key one)
    obtain ⟨tables, timers⟩ := putSlot_tables h i (some (e.takeReport h.profile (checkedOf x)))
    let t := (h.setSlots (putSlot h.table.slots i (some (e.takeReport h.profile (checkedOf x))))).counted r .taken (mends x)
    have kept : (∀ j, j ≠ i → t.entry j = h.entry j) ∧ t.entry i = some (e.takeReport h.profile (checkedOf x)) := by
      refine ⟨fun j ne => ?_, ?_⟩
      · rw [State.counted_entry, putSlot_entry _ lt, if_neg ne]
        rfl
      · rw [State.counted_entry, putSlot_entry _ lt, if_pos rfl]
    constructor
    · intro lost
      have joined : (!e.isRanked) = true := by unfold Entry.isRanked; rw [lost]; rfl
      rw [joined] at known
      refine ⟨_, State.joins_of speaks takes checks known tables timers rfl, kept.1, kept.2.trans (congrArg some ?_)⟩
      unfold Entry.takeReport
      rw [lost]
      rfl
    · intro g state
      refine ⟨16 * mendedLevel x - e.level, _, rfl, rfl, _, rfl, ?_⟩
      have reports : satSucc 255 e.reports = min 255 (e.reports + 1) := by
        unfold satSucc
        split <;> omega
      have taken : e.takeReport h.profile (checkedOf x) = e.hear h.profile g (checkedOf x) := by
        unfold Entry.takeReport
        rcases state with k | k <;> rw [k]
      have after : heardAfter g (min 255 (e.reports + 1))
          = if g = .steady ∨ 3 ≤ min 255 (e.reports + 1) then .steady else .fresh := by
        cases g <;> simp [heardAfter]
      have hears : e.takeReport h.profile (checkedOf x) = _ := taken
      unfold Entry.hear at hears
      dsimp only at hears
      rw [reports, after, smooth_eq, Entry.enterRanked_eq] at hears
      constructor
      · intro held
        have joined : (!e.isRanked) = true := by unfold Entry.isRanked; rw [held]; rfl
        rw [joined] at known
        exact ⟨_, State.joins_of speaks takes checks known tables timers rfl, kept.1, kept.2.trans (congrArg some hears)⟩
      · intro ranked
        have joined : (!e.isRanked) = false := by unfold Entry.isRanked; rw [ranked]; rfl
        rw [joined] at known
        exact ⟨_, State.reported_passed speaks takes checks known tables timers rfl, kept.1, kept.2.trans (congrArg some hears)⟩
  · have unbound : boundInForce h = false := by
      rw [← Bool.not_eq_true, boundInForce_iff]
      rintro ⟨critical, many⟩
      have := bound critical
      omega
    have meets := meetTable_free (findKey_absent (r := r) (x := checkedOf x) absent) unbound
      (freeSlot_of (t := h.table.slots) lt free first)
    obtain ⟨tables, timers⟩ := putSlot_tables h i (some (newcomer h r (checkedOf x)))
    refine ⟨tierOf h.prefs x.network, fun none => tierOf_of_absent none, fun j q at_ code => ?_, _,
      State.joins_of speaks takes checks meets tables timers rfl, fun j ne => ?_, ?_⟩
    · rw [← code]
      exact tierOf_of_at sound at_
    · rw [State.counted_entry, putSlot_entry _ lt, if_neg ne]
      rfl
    · rw [State.counted_entry, putSlot_entry _ lt, if_pos rfl, newcomer_eq]
      rfl

/-- Settles O46: the victim rule, and a newcomer that it refuses. -/
theorem cellReportFull : Obligations.CellReportFull := by
  intro s r x speaks takes
  dsimp only
  intro passes sound absent crowded
  set h := s.heardOn r with hh
  have checks := checkReport_passed passes
  have found := findKey_absent (r := r) (x := checkedOf x) absent
  have full : boundInForce h = true ∨ freeSlot h.table.slots = none :=
    crowded.elim (fun all => .inr (freeSlot_none all)) fun bound => .inl (boundInForce_iff.2 bound)
  have refused (keeps : ∀ i v, victim h.table.slots = some (i, v) → ¬ v.score < (newcomer h r (checkedOf x)).score) :=
    State.reported_passed (c := { (h.radio r).counts with tableFull := min 65535 ((h.radio r).counts.tableFull + 1) })
      speaks takes checks (meetTable_tableFull found full keeps) (.refl _) rfl rfl
  refine ⟨fun pinned => ⟨_, refused fun i v loser => ?_, rfl⟩, fun i v tier at_ pin which tiers e new => ?_⟩
  · rw [victim_none pinned] at loser
    cases loser
  · have loser : victim h.table.slots = some (i, v) := by
      rcases which with ⟨lost, first⟩ | ⟨heard, least⟩
      · exact victim_lost at_ pin lost first
      · exact victim_weakest at_ pin heard least
    have same : newcomer h r (checkedOf x) = e := by
      rw [new, newcomer_eq, show tierOf h.prefs (checkedOf x).network = tier from tierOf_cases sound tiers]
      rw [new]
      rfl
    constructor
    · intro worse
      refine ⟨_, refused fun j w k => ?_, rfl⟩
      rw [loser] at k
      cases k
      rw [same]
      omega
    · intro better
      have lt : i < 48 := slotAt_lt at_
      have meets := meetTable_victim found full loser (by rw [same]; exact better)
      obtain ⟨tables, timers⟩ := putSlot_tables h i none
      obtain ⟨tables', timers'⟩ := putSlot_tables (h.setSlots (putSlot h.table.slots i none)) i
        (some (newcomer h r (checkedOf x)))
      have timers'' : { ((h.setSlots (putSlot h.table.slots i none)).setSlots
          (putSlot (h.setSlots (putSlot h.table.slots i none)).table.slots i (some (newcomer h r (checkedOf x))))).table with
            slots := h.table.slots } = h.table :=
        (congrArg (fun y : ReachTable => { y with slots := h.table.slots }) timers' : _).trans timers
      refine ⟨_, State.joins_of speaks takes checks meets (tables.trans tables') timers'' rfl, fun j ne => ?_, ?_⟩
      · rw [State.counted_entry, putSlot_entry _ lt, if_neg ne]
        show State.entry _ j = _
        rw [putSlot_entry _ lt, if_neg ne]
        rfl
      · rw [State.counted_entry, putSlot_entry _ lt, if_pos rfl, same]

end Sys2Proof.Machine
end

section
/-! PROOFS. Orders that a radio takes (O47). -/

namespace Sys2Proof.Machine

/-! ### The survey test and a radio that is not READY (R77) -/

section
variable {s : State} {r : Radio}

theorem State.radio_of_queue {t : State} (core : t.core r = s.core r) (queue : (t.radio r).queue = (s.radio r).queue) :
    t.radio r = s.radio r := by
  have kept := State.radioKept_iff.2 core
  unfold State.radioKept at kept
  rw [← queue] at kept
  exact kept

theorem State.orderSurvey_radio_other {q : Radio} (ne : r ≠ q) (u : Bool) : (s.orderSurvey q u).radio r = s.radio r :=
  State.radio_of_queue ((State.orderSurvey_quiet s q u).core r) (State.orderSurvey_queue_other s q r u ne)

theorem State.orderWanted_radio_unready {q : Radio} (unready : (s.radio r).state ≠ .ready) :
    (s.orderWanted q).radio r = s.radio r := by
  unfold State.orderWanted
  split
  · next wanted =>
    refine State.orderSurvey_radio_other ?_ false
    rintro rfl
    exact unready (surveyWanted_iff.1 wanted).2.2
  · rfl

theorem State.surveyTest_radio_unready (unready : (s.radio r).state ≠ .ready) : s.surveyTest.radio r = s.radio r := by
  have one (t : State) (q : Radio) (h : t.radio r = s.radio r) : (t.orderWanted q).radio r = s.radio r :=
    (State.orderWanted_radio_unready (by rw [h]; exact unready)).trans h
  unfold State.surveyTest
  split
  · exact one _ .B (one s .A rfl)
  · split
    · rfl
    · dsimp only
      split
      · next wanted =>
        refine State.orderSurvey_radio_other ?_ false
        rintro rfl
        exact unready (surveyWanted_iff.1 wanted).2.2
      · exact one s _ rfl

end

/-! ### TAKE ORDER (R67) -/

section
variable {h : State} {r : Radio} {rest : List Order}

/-- What taking an order leaves of the rest, whatever it does to the radio. -/
structure State.Taken (h t : State) (r : Radio) : Prop where
  other : { t.radio (otherRadio r) with queue := (h.radio (otherRadio r)).queue } = h.radio (otherRadio r)
  journal : t.journal = h.journal
  prefs : t.prefs = h.prefs
  supply : t.supply = h.supply
  profile : t.profile = h.profile
  linkCheck : t.linkCheck = h.linkCheck

theorem Around.taken {s t : State} (h : Around s t) : s.Taken t r :=
  ⟨h.radio _, h.journal, h.prefs, h.supply, h.profile, h.linkCheck⟩

theorem State.Taken.trans {s t u : State} (h : s.Taken t r) (k : t.Taken u r) : s.Taken u r :=
  ⟨State.radioKept.trans (t := t) h.other k.other, k.journal.trans h.journal, k.prefs.trans h.prefs, k.supply.trans h.supply,
    k.profile.trans h.profile, k.linkCheck.trans h.linkCheck⟩

theorem State.setQueue_taken (h : State) (r : Radio) (l : List Order) : h.Taken (h.setQueue r l) r := by
  have rest := h.setQueue_rest r l
  refine ⟨?_, (congrArg State.journal rest : _), (congrArg State.prefs rest : _), (congrArg State.supply rest : _),
    (congrArg State.profile rest : _), (congrArg State.linkCheck rest : _)⟩
  rw [State.radio_setQueue, if_neg (otherRadio_ne r)]

theorem State.setRadioState_taken (h : State) (r : Radio) (st : RadioState) : h.Taken (h.setRadioState r st) r := by
  refine ⟨?_, h.setRadioState_journal r st, h.setRadioState_prefs r st, h.setRadioState_supply r st,
    h.setRadioState_profile r st, h.setRadioState_linkCheck r st⟩
  rw [State.setRadioState_other _ _ _ _ (otherRadio_ne r)]

end

/-- A SURVEY order that is handed over where no survey can start (R67, log entry 17). -/
theorem State.surveyTaken_closed {s : State} {r : Radio} (closed : ¬ ((s.radio r).state = .ready ∨ (s.radio r).state = .surveying))
    (w : Nat) (b : Bool) : ((∃ v, s.surveyOf r = .ordered v) ∧ s.surveyTaken r w b = (s.setSurvey r .due).surveyTest)
      ∨ ((∀ v, s.surveyOf r ≠ .ordered v) ∧ s.surveyTaken r w b = s) := by
  unfold State.surveyTaken
  cases state : (s.radio r).state with
  | ready => exact (closed (.inl state)).elim
  | surveying => exact (closed (.inr state)).elim
  | off | starting | attempting | inCall | snooze | silent | fault => cases s.surveyOf r <;> simp

/-! ### A POWER SNOOZE that is taken (R67, R81, R146) -/

section
variable {s : State} {r : Radio}

/-- A radio that has gone to SNOOZE, its survey ended and its entries HELD. -/
def State.bedded (s : State) (r : Radio) : State :=
  (((s.setRadioState r .snooze).cutSurvey r).tellScheduler r).holdEntries r

theorem State.snoozeTaken_awake
    (awake : (s.radio r).state = .starting ∨ (s.radio r).state = .ready ∨ (s.radio r).state = .surveying) :
    s.snoozeTaken r = (((s.bedded r).loseRinging r).post .radio).snoozeTest false := by
  unfold State.snoozeTaken
  rcases awake with h | h | h <;> rw [h] <;> rfl

theorem State.bedded_schedules (s : State) (r : Radio) : Schedules (EndsOn r) (s.setRadioState r .snooze)
    (((s.setRadioState r .snooze).cutSurvey r).tellScheduler r) :=
  (State.cutSurvey_schedules _ r (show EndsOn r r from rfl)).trans (State.tellScheduler_schedules _ r (.inl rfl))

theorem State.bedded_around (s : State) (r : Radio) : Around (s.setRadioState r .snooze) (s.bedded r) :=
  (s.bedded_schedules r).quiet.around.trans (State.holdEntries_tables _ r).around

theorem State.bedded_entry (s : State) (r : Radio) (i : Nat) : (s.bedded r).entry i = (s.entry i).bind (·.heldBy r) := by
  unfold State.bedded
  rw [State.holdEntries_entry, (s.bedded_schedules r).quiet.entry, State.setRadioState_entry]

theorem State.bedded_stopped (s : State) (r : Radio) : ((s.bedded r).surveyOf r).isRunning = false := by
  unfold State.bedded
  rw [(State.holdEntries_tables _ r).surveyOf]
  exact (State.tellScheduler_schedules (e := EndsOn r) _ r (.inl rfl)).stopped (State.cutSurvey_stopped _ r)

/-- The offer of a radio other than the held one is RINGING (R146). -/
def State.Rings (s : State) (r : Radio) : Prop :=
  s.call.state = .callback ∧ ∃ p x, s.call.part = some p ∧ p.offer = some x ∧ x.radio = r ∧ x.ring = .ringing
    ∧ ∀ k, p.held = some k → k.radio ≠ r

theorem State.loseRinging_kept (not : ¬ s.Rings r) : s.loseRinging r = s := by
  unfold State.loseRinging
  rw [if_neg]
  intro now
  simp only [Bool.and_eq_true, beq_iff_eq, Bool.not_eq_true', Option.any_eq_true] at now
  obtain ⟨⟨state, held⟩, p, part, x, offer, radio, ring⟩ := now
  refine not ⟨state, p, x, part, offer, radio, ring, fun k hk same => ?_⟩
  have : s.isHeldRadio r = true := (s.isHeldRadio_iff r).2 ⟨p, k, part, hk, same⟩
  rw [this] at held
  cases held

theorem State.loseRinging_lost (rings : s.Rings r) : s.loseRinging r = (s.enqueue r (.callback .stop)).removeOffer := by
  obtain ⟨state, p, x, part, offer, radio, ring, held⟩ := rings
  unfold State.loseRinging
  rw [if_pos]
  have free : s.isHeldRadio r = false := by
    rw [← Bool.not_eq_true, s.isHeldRadio_iff]
    rintro ⟨q, k, hq, hk, same⟩
    rw [part] at hq
    cases hq
    exact held k hk same
  simp [state, free, part, offer, radio, ring]

theorem State.removeOffer_tends (s : State) : Tends NoneEnds (s.mapPart CallbackPart.withoutOffer) s.removeOffer :=
  State.snoozeTest_tends _ false

theorem State.removeOffer_call (s : State) : s.removeOffer.call = { s.call with part := s.call.part.map CallbackPart.withoutOffer } :=
  s.removeOffer_tends.quiet.call

theorem State.removeOffer_around (s : State) :
    Around s { s.removeOffer with call := s.call } := by
  have a := s.removeOffer_tends.quiet.around
  exact ⟨a.radio, rfl, a.journal, a.prefs, a.supply, a.profile, a.linkCheck, a.pending⟩

/-- The end of a ringing offer leaves all but the part, the queues and the surveys. -/
theorem State.loseRinging_left (s : State) (r : Radio) : Around s { s.loseRinging r with call := s.call }
    ∧ (s.loseRinging r).table = s.table
    ∧ ((s.surveyOf r).isRunning = false → ((s.loseRinging r).surveyOf r).isRunning = false) := by
  by_cases rings : s.Rings r
  · rw [State.loseRinging_lost rings]
    have enq := s.enqueue_quiet r (.callback .stop)
    have tends := (s.enqueue r (.callback .stop)).removeOffer_tends
    refine ⟨?_, ?_, fun still => tends.stopped ?_⟩
    · have a := enq.around
      have b := (s.enqueue r (.callback .stop)).removeOffer_around
      exact ⟨fun q => (State.radioKept.trans (a.radio q) (b.radio q) : s.radioKept _ q), rfl, b.journal.trans a.journal,
        b.prefs.trans a.prefs, b.supply.trans a.supply, b.profile.trans a.profile, b.linkCheck.trans a.linkCheck,
        b.pending.trans a.pending⟩
    · exact tends.quiet.table.trans enq.table
    · exact (congrArg SurveyState.isRunning (surveyOf_of (enqueue_survey s r (.callback .stop)) r) : _).trans still
  · rw [State.loseRinging_kept rings]
    exact ⟨.refl s, rfl, id⟩

end

/-! ### Each kind of order that is taken (R67) -/

section
variable {s : State} {r : Radio}

theorem State.mapRadio_taken (s : State) (r : Radio) (f : RadioContext → RadioContext) : s.Taken (s.mapRadio r f) r :=
  ⟨by rw [State.radio_mapRadio, if_neg (otherRadio_ne r)], rfl, rfl, rfl, rfl, rfl⟩

theorem State.attemptTaken_taken (s : State) (r : Radio) (n : Nat) : s.Taken (s.attemptTaken r n) r := by
  have map := s.mapRadio_taken r fun c => { c with take := none }
  exact ⟨map.other, rfl, rfl, rfl, rfl, rfl⟩

theorem State.attemptTaken_radio (s : State) (r : Radio) (n : Nat) :
    (s.attemptTaken r n).radio r = { s.radio r with take := none } := by
  have map := s.radio_mapRadio r r fun c => { c with take := none }
  rw [if_pos rfl] at map
  exact map

theorem State.attemptTaken_call (s : State) (r : Radio) (n : Nat) : (s.attemptTaken r n).call
    = { s.call with attempts := s.call.attempts.map fun a =>
        if a.number = n ∧ a.radio = r ∧ a.step = .ordered then { a with step := .taken, setup := some 0 } else a } := by
  refine congrArg (fun l => ({ s.call with attempts := l } : CallRecord)) (List.map_congr_left fun x _ => ?_)
  by_cases mine : x.number = n
  · rw [if_pos mine]
    exact if_congr (by simp [mine]) rfl rfl
  · rw [if_neg mine, if_neg fun k => mine k.1]

/-- A survey that starts as its order is taken. -/
theorem State.surveyTaken_opened (opened : (s.radio r).state = .ready ∨ (s.radio r).state = .surveying) (w : Nat) (b : Bool) :
    Around (s.setRadioState r .surveying) (s.surveyTaken r w b) ∧ (s.surveyTaken r w b).table = s.table
      ∧ (s.surveyTaken r w b).surveyOf r = .running b w 0 := by
  have eq : s.surveyTaken r w b = ((s.setRadioState r .surveying).startSurvey r w b).snoozeTest false := by
    unfold State.surveyTaken
    rcases opened with k | k <;> rw [k]
  have starts : Quiet (s.setRadioState r .surveying) ((s.setRadioState r .surveying).startSurvey r w b) :=
    State.setSurvey_quiet _ _ _
  have tends := State.snoozeTest_tends (e := NoneEnds) ((s.setRadioState r .surveying).startSurvey r w b) false
  have quiet := starts.trans tends.quiet
  have now : ((s.setRadioState r .surveying).startSurvey r w b).surveyOf r = .running b w 0 := by
    unfold State.startSurvey
    rw [setSurvey_surveyOf, if_pos rfl]
  have runs := tends.runs r
  rw [now] at runs
  rw [eq]
  refine ⟨quiet.around, quiet.table.trans (State.setRadioState_table_open s r ?_), (runs.1 rfl).elim id fun no => no.1.elim⟩
  rcases opened with k | k <;> rw [k] <;> decide

theorem State.surveyTaken_running (opened : (s.radio r).state = .ready ∨ (s.radio r).state = .surveying) (w : Nat) (b : Bool) :
    (s.surveyTaken r w b).core r = { s.core r with state := .surveying, start := none } := by
  rw [(State.surveyTaken_opened opened w b).1.core, State.setRadioState_core, if_pos rfl]
  unfold State.core RadioContext.enter
  rcases opened with k | k <;> simp [k, RadioState.isWorking]

/-- A SURVEY that is handed over where none can start leaves its radio, which is no longer ORDERED (log entry 17). -/
theorem State.surveyTaken_handed (closed : ¬ ((s.radio r).state = .ready ∨ (s.radio r).state = .surveying)) (w : Nat) (b : Bool) :
    Quiet s (s.surveyTaken r w b) ∧ (s.surveyTaken r w b).radio r = s.radio r
      ∧ ∀ v, (s.surveyTaken r w b).surveyOf r ≠ .ordered v := by
  have unready : ((s.setSurvey r .due).radio r).state ≠ .ready := fun k => closed (.inl k)
  rcases State.surveyTaken_closed closed w b with ⟨-, eq⟩ | ⟨unordered, eq⟩ <;> rw [eq]
  · have stops : Schedules (fun _ => True) s (s.setSurvey r .due) := Schedules.setSurvey_stop s r (.inl trivial) rfl
    refine ⟨(stops.trans (State.surveyTest_schedules _)).quiet, State.surveyTest_radio_unready unready, fun v => ?_⟩
    rw [State.surveyTest_unready unready, setSurvey_surveyOf, if_pos rfl]
    simp
  · exact ⟨.refl s, rfl, unordered⟩

theorem State.surveyTaken_left (w : Nat) (b : Bool) : s.Taken (s.surveyTaken r w b) r
    ∧ (s.surveyTaken r w b).call = s.call ∧ (s.surveyTaken r w b).table = s.table := by
  by_cases opened : (s.radio r).state = .ready ∨ (s.radio r).state = .surveying
  · obtain ⟨around, table, -⟩ := State.surveyTaken_opened opened w b
    exact ⟨(s.setRadioState_taken r _).trans around.taken, around.call.trans (s.setRadioState_call r _), table⟩
  · obtain ⟨quiet, -⟩ := State.surveyTaken_handed opened w b
    exact ⟨quiet.around.taken, quiet.call, quiet.table⟩

theorem State.wakeTaken_still (awake : (s.radio r).state ≠ .snooze) : s.wakeTaken r = s := by
  unfold State.wakeTaken
  split
  · next asleep => exact absurd asleep awake
  all_goals rfl

/-- A radio that a POWER WAKE takes out of SNOOZE. -/
theorem State.wakeTaken_asleep (asleep : (s.radio r).state = .snooze) :
    Around (s.setRadioState r .starting) (s.wakeTaken r) ∧ (s.wakeTaken r).table = s.table
      ∧ (s.wakeTaken r).surveyOf r = .due := by
  have eq : s.wakeTaken r = ((s.setRadioState r .starting).tellScheduler r).snoozeTest false := by
    unfold State.wakeTaken
    rw [asleep]
  have told : Schedules (EndsOn r) (s.setRadioState r .starting) ((s.setRadioState r .starting).tellScheduler r) :=
    State.tellScheduler_schedules _ r (.inl rfl)
  have quiet := told.quiet.trans (State.snoozeTest_quiet _ false)
  rw [eq]
  exact ⟨quiet.around, quiet.table.trans (State.setRadioState_table_open s r (by rw [asleep]; decide)),
    ((State.tellScheduler_rests (.inl (s.setRadioState_state r .starting))).snoozeTest false).2⟩

theorem State.wakeTaken_left : s.Taken (s.wakeTaken r) r ∧ (s.wakeTaken r).call = s.call ∧ (s.wakeTaken r).table = s.table := by
  by_cases asleep : (s.radio r).state = .snooze
  · obtain ⟨around, table, -⟩ := State.wakeTaken_asleep asleep
    exact ⟨(s.setRadioState_taken r _).trans around.taken, around.call.trans (s.setRadioState_call r _), table⟩
  · rw [State.wakeTaken_still asleep]
    exact ⟨Around.taken (.refl s), rfl, rfl⟩

theorem State.wakeTaken_core (asleep : (s.radio r).state = .snooze) :
    (s.wakeTaken r).core r = { s.core r with state := .starting, silence := none, start := some 0 } := by
  rw [(State.wakeTaken_asleep asleep).1.core, State.setRadioState_core, if_pos rfl]
  rfl

theorem State.snoozeTaken_still
    (not : ¬ ((s.radio r).state = .starting ∨ (s.radio r).state = .ready ∨ (s.radio r).state = .surveying)) :
    s.snoozeTaken r = s := by
  unfold State.snoozeTaken
  cases k : (s.radio r).state <;> simp [k] at not ⊢

/-- What a taken POWER SNOOZE leaves once its radio sleeps and its ringing offer, if any, is gone. -/
theorem State.snoozeTaken_tends
    (awake : (s.radio r).state = .starting ∨ (s.radio r).state = .ready ∨ (s.radio r).state = .surveying) :
    Tends NoneEnds (((s.bedded r).loseRinging r).post .radio) (s.snoozeTaken r) := by
  rw [State.snoozeTaken_awake awake]
  exact State.snoozeTest_tends _ false

theorem State.loseRinging_post (t : State) (r : Radio) : Quiet (t.loseRinging r) ((t.loseRinging r).post .radio) :=
  State.post_quiet _ _

theorem State.snoozeTaken_left
    (awake : (s.radio r).state = .starting ∨ (s.radio r).state = .ready ∨ (s.radio r).state = .surveying) :
    s.Taken (s.snoozeTaken r) r
      ∧ (s.snoozeTaken r).core r = { s.core r with state := .snooze, silence := none, start := none }
      ∧ ((s.snoozeTaken r).port .station).pending.radio = true ∧ ((s.snoozeTaken r).surveyOf r).isRunning = false
      ∧ s.entriesHeld (s.snoozeTaken r) r := by
  obtain ⟨left, table, still⟩ := (s.bedded r).loseRinging_left r
  have tends := State.snoozeTaken_tends awake
  have quiet := (State.loseRinging_post _ r).trans tends.quiet
  have rang : ((s.bedded r).loseRinging r).core r = (s.bedded r).core r := State.radioKept_iff.1 (left.radio r)
  have mid : (s.bedded r).Taken ((s.bedded r).loseRinging r) r :=
    ⟨left.radio _, left.journal, left.prefs, left.supply, left.profile, left.linkCheck⟩
  refine ⟨(s.setRadioState_taken r _).trans ((s.bedded_around r).taken.trans (mid.trans quiet.around.taken)), ?_,
    (Tends.station tends .radio).trans (State.post_posted _ .radio), tends.stopped ?_, entriesHeld_of fun i => ?_⟩
  · rw [quiet.core, rang, (s.bedded_around r).core, State.setRadioState_core, if_pos rfl]
    rfl
  · rw [surveyOf_of (State.post_survey _ _)]
    exact still (s.bedded_stopped r)
  · rw [← State.bedded_entry]
    unfold State.entry
    rw [quiet.table, table]

theorem State.snoozeTaken_call
    (awake : (s.radio r).state = .starting ∨ (s.radio r).state = .ready ∨ (s.radio r).state = .surveying) :
    (s.snoozeTaken r).call = ((s.bedded r).loseRinging r).call :=
  ((State.loseRinging_post _ r).trans (State.snoozeTaken_tends awake).quiet).call

theorem State.bedded_call (s : State) (r : Radio) : (s.bedded r).call = s.call :=
  (s.bedded_around r).call.trans (s.setRadioState_call r _)

theorem State.bedded_rings (s : State) (r : Radio) : (s.bedded r).Rings r ↔ s.Rings r := by
  unfold State.Rings
  rw [State.bedded_call]

/-- The ringing offer of a radio that goes to SNOOZE is lost (R146). -/
theorem State.snoozeTaken_rang
    (awake : (s.radio r).state = .starting ∨ (s.radio r).state = .ready ∨ (s.radio r).state = .surveying) (rings : s.Rings r) :
    .callback .stop ∈ ((s.snoozeTaken r).radio r).queue
      ∧ (s.snoozeTaken r).call = { s.call with part := s.call.part.map CallbackPart.withoutOffer } := by
  have lost := State.loseRinging_lost ((s.bedded_rings r).2 rings)
  have live : ((s.bedded r).radio r).state = .snooze :=
    ((s.bedded_around r).state r).trans (s.setRadioState_state r _)
  have sent := State.queue_enqueue (s.bedded r) r r (.callback .stop)
  rw [if_pos ⟨rfl, by rw [live]; decide⟩] at sent
  constructor
  · refine ((State.snoozeTaken_tends awake).mem r (by decide) (by decide)).2 ?_
    rw [State.radio_of_radios (State.post_radios _ _), lost]
    refine (((s.bedded r).enqueue r (.callback .stop)).removeOffer_tends.mem r (by decide) (by decide)).2 ?_
    show _ ∈ (((s.bedded r).enqueue r (.callback .stop)).radio r).queue
    rw [sent]
    exact List.mem_append_right _ (List.mem_singleton_self _)
  · rw [State.snoozeTaken_call awake, lost, State.removeOffer_call, (State.enqueue_quiet _ _ _).call, State.bedded_call]

theorem State.snoozeTaken_unrung
    (awake : (s.radio r).state = .starting ∨ (s.radio r).state = .ready ∨ (s.radio r).state = .surveying) (not : ¬ s.Rings r) :
    (s.snoozeTaken r).call = s.call := by
  rw [State.snoozeTaken_call awake, State.loseRinging_kept (mt (s.bedded_rings r).1 not), State.bedded_call]

end

/-! ### The cases of a taken order, as the statement puts them -/

/-- What TAKE ORDER says of the order `o` that has left the queue of `h`, `rest` staying, once the order is taken in `t`. -/
def State.TakesOrder (h t : State) (r : Radio) (o : Order) (rest : List Order) : Prop :=
  (∀ n a b c d e, o = .attempt n a b c d e →
      t.radio r = { h.radio r with queue := rest, take := none } ∧ t.survey = h.survey
      ∧ t.call = { h.call with attempts := h.call.attempts.map fun a =>
          if a.number = n ∧ a.radio = r ∧ a.step = .ordered then { a with step := .taken, setup := some 0 } else a })
    ∧ ((∃ n c, o = .cancel n c) ∨ (∃ a, o = .callback a) → t.radio r = { h.radio r with queue := rest } ∧ t.survey = h.survey)
    ∧ (∀ w u, o = .survey w u →
      ((h.radio r).state = .ready ∨ (h.radio r).state = .surveying →
        t.radio r = { h.radio r with state := .surveying, start := none, queue := (t.radio r).queue }
        ∧ t.surveyOf r = .running u w 0)
      ∧ ((h.radio r).state ≠ .ready → (h.radio r).state ≠ .surveying → t.radio r = { h.radio r with queue := rest }
        ∧ ∀ v, t.surveyOf r ≠ .ordered v))
    ∧ (o = .power .snooze →
      ((h.radio r).state = .starting ∨ (h.radio r).state = .ready ∨ (h.radio r).state = .surveying →
        t.radio r = { h.radio r with state := .snooze, silence := none, start := none, queue := (t.radio r).queue }
        ∧ (t.port .station).pending.radio = true ∧ (∀ u w x, t.surveyOf r ≠ .running u w x) ∧ h.entriesHeld t r)
      ∧ ((h.radio r).state = .attempting ∨ (h.radio r).state = .inCall ∨ (h.radio r).state = .snooze
          ∨ (h.radio r).state = .fault → t.radio r = { h.radio r with queue := rest } ∧ t.table = h.table
        ∧ t.survey = h.survey))
    ∧ (o = .power .wake →
      ((h.radio r).state = .snooze →
        t.radio r = { h.radio r with state := .starting, silence := none, start := some 0, queue := (t.radio r).queue }
        ∧ t.surveyOf r = .due)
      ∧ ((h.radio r).state ≠ .snooze → t.radio r = { h.radio r with queue := rest } ∧ t.survey = h.survey))

section
variable {h : State} {r : Radio} {rest : List Order}

theorem State.setQueue_self (h : State) (r : Radio) (l : List Order) :
    (h.setQueue r l).radio r = { h.radio r with queue := l } := by
  rw [State.radio_setQueue, if_pos rfl]

theorem State.setQueue_core (h : State) (r : Radio) (l : List Order) : (h.setQueue r l).core r = h.core r := by
  unfold State.core
  rw [State.setQueue_self]

theorem State.takesOrder_attempt (n a b c d e : Nat) :
    h.TakesOrder ((h.setQueue r rest).orderTaken r (.attempt n a b c d e)) r (.attempt n a b c d e) rest := by
  refine ⟨?_, by rintro (⟨_, _, ⟨⟩⟩ | ⟨_, ⟨⟩⟩), nofun, nofun, nofun⟩
  rintro _ _ _ _ _ _ ⟨⟩
  refine ⟨((h.setQueue r rest).attemptTaken_radio r n).trans ?_, h.setQueue_survey r rest,
    ((h.setQueue r rest).attemptTaken_call r n).trans ?_⟩
  · rw [State.setQueue_self]
  · rw [State.setQueue_call]

/-- An order that is handed over alone. -/
theorem State.takesOrder_handed {o : Order} (kind : (∃ n c, o = .cancel n c) ∨ ∃ a, o = .callback a) :
    h.TakesOrder ((h.setQueue r rest).orderTaken r o) r o rest := by
  have radio := h.setQueue_self r rest
  have survey := h.setQueue_survey r rest
  rcases kind with ⟨n, c, rfl⟩ | ⟨a, rfl⟩ <;> exact ⟨nofun, fun _ => ⟨radio, survey⟩, nofun, nofun, nofun⟩

theorem State.takesOrder_survey (w : Nat) (b : Bool) :
    h.TakesOrder ((h.setQueue r rest).orderTaken r (.survey w b)) r (.survey w b) rest := by
  have self := h.setQueue_self r rest
  have state : ((h.setQueue r rest).radio r).state = (h.radio r).state := by rw [self]
  refine ⟨nofun, by rintro (⟨_, _, ⟨⟩⟩ | ⟨_, ⟨⟩⟩), ?_, nofun, nofun⟩
  rintro _ _ ⟨⟩
  refine ⟨fun opened => ?_, fun unready still => ?_⟩
  · rw [← state] at opened
    have core := State.surveyTaken_running opened w b
    rw [State.setQueue_core] at core
    exact ⟨State.radio_of_core (c := { h.radio r with state := .surveying, start := none }) core,
      (State.surveyTaken_opened opened w b).2.2⟩
  · rw [← state] at unready still
    obtain ⟨-, radio, unordered⟩ := State.surveyTaken_handed (not_or.2 ⟨unready, still⟩) w b
    exact ⟨radio.trans self, unordered⟩

theorem State.takesOrder_snooze :
    h.TakesOrder ((h.setQueue r rest).orderTaken r (.power .snooze)) r (.power .snooze) rest := by
  have self := h.setQueue_self r rest
  have state : ((h.setQueue r rest).radio r).state = (h.radio r).state := by rw [self]
  refine ⟨nofun, by rintro (⟨_, _, ⟨⟩⟩ | ⟨_, ⟨⟩⟩), nofun, fun _ => ⟨fun awake => ?_, fun asleep => ?_⟩, nofun⟩
  · rw [← state] at awake
    obtain ⟨-, core, posted, stopped, held⟩ := State.snoozeTaken_left awake
    rw [State.setQueue_core] at core
    refine ⟨State.radio_of_core (c := { h.radio r with state := .snooze, silence := none, start := none }) core, posted,
      (SurveyState.isRunning_eq_false _).1 stopped, ?_⟩
    unfold State.entriesHeld State.entry at *
    rw [State.setQueue_table] at held
    exact held
  · rw [← state] at asleep
    have eq : (h.setQueue r rest).orderTaken r (.power .snooze) = h.setQueue r rest :=
      State.snoozeTaken_still (by rcases asleep with k | k | k | k <;> rw [k] <;> decide)
    rw [eq]
    exact ⟨self, h.setQueue_table r rest, h.setQueue_survey r rest⟩

theorem State.takesOrder_wake :
    h.TakesOrder ((h.setQueue r rest).orderTaken r (.power .wake)) r (.power .wake) rest := by
  have self := h.setQueue_self r rest
  have state : ((h.setQueue r rest).radio r).state = (h.radio r).state := by rw [self]
  refine ⟨nofun, by rintro (⟨_, _, ⟨⟩⟩ | ⟨_, ⟨⟩⟩), nofun, nofun, fun _ => ⟨fun asleep => ?_, fun awake => ?_⟩⟩
  · rw [← state] at asleep
    have core := State.wakeTaken_core asleep
    rw [State.setQueue_core] at core
    exact ⟨State.radio_of_core (c := { h.radio r with state := .starting, silence := none, start := some 0 }) core,
      (State.wakeTaken_asleep asleep).2.2⟩
  · rw [← state] at awake
    have eq : (h.setQueue r rest).orderTaken r (.power .wake) = h.setQueue r rest := State.wakeTaken_still awake
    rw [eq]
    exact ⟨self, h.setQueue_survey r rest⟩

theorem State.takesOrder (o : Order) : h.TakesOrder ((h.setQueue r rest).orderTaken r o) r o rest := by
  cases o with
  | attempt n a b c d e => exact State.takesOrder_attempt n a b c d e
  | cancel n c => exact State.takesOrder_handed (.inl ⟨n, c, rfl⟩)
  | callback a => exact State.takesOrder_handed (.inr ⟨a, rfl⟩)
  | survey w b => exact State.takesOrder_survey w b
  | power a =>
    cases a with
    | snooze => exact State.takesOrder_snooze
    | wake => exact State.takesOrder_wake

/-- What every taken order leaves. -/
theorem State.orderTaken_left (s : State) (r : Radio) (o : Order) : s.Taken (s.orderTaken r o) r
    ∧ ((∀ n a b c d e, o ≠ .attempt n a b c d e) → o ≠ .power .snooze → (s.orderTaken r o).call = s.call)
    ∧ (o ≠ .power .snooze → (s.orderTaken r o).table = s.table) := by
  have still : s.Taken s r := Around.taken (.refl s)
  cases o with
  | attempt n a b c d e => exact ⟨s.attemptTaken_taken r n, fun no => absurd rfl (no n a b c d e), fun _ => rfl⟩
  | cancel n c | callback a => exact ⟨still, fun _ _ => rfl, fun _ => rfl⟩
  | survey w b => exact ⟨State.surveyTaken_left w b |>.1, fun _ _ => (State.surveyTaken_left w b).2.1, fun _ => (State.surveyTaken_left w b).2.2⟩
  | power a =>
    cases a with
    | wake => exact ⟨State.wakeTaken_left.1, fun _ _ => State.wakeTaken_left.2.1, fun _ => State.wakeTaken_left.2.2⟩
    | snooze =>
      refine ⟨?_, fun _ no => absurd rfl no, fun no => absurd rfl no⟩
      by_cases awake : (s.radio r).state = .starting ∨ (s.radio r).state = .ready ∨ (s.radio r).state = .surveying
      · exact (State.snoozeTaken_left awake).1
      · exact (congrArg (fun t => s.Taken t r) (State.snoozeTaken_still awake)).mpr still

end

/-- Settles O47: each order by its kind and the radio's state. -/
theorem takeOrder : Obligations.TakeOrder := by
  intro s r speaks
  dsimp only
  have request {t : State} {x : Response} (eq : (s.heardOn r).takeOrder r = (t, x)) :
      exec (.takeOrder (.radio r)) s = .next (t.answered (.radio r) x) :=
    State.next_radio (f := fun r s => s.takeOrder r) speaks eq
  generalize s.heardOn r = h at request
  refine ⟨fun none => request ?_, fun o rest queue => ⟨(h.setQueue r rest).orderTaken r o, request ?_, ?_⟩⟩
  · unfold State.takeOrder
    rw [none]
    rfl
  · unfold State.takeOrder
    rw [queue]
  have state : ((h.setQueue r rest).radio r).state = (h.radio r).state := by rw [State.setQueue_self]
  obtain ⟨taken, call, table⟩ := (h.setQueue r rest).orderTaken_left r o
  have taken := (h.setQueue_taken r rest).trans taken
  refine ⟨taken.other, taken.journal, taken.prefs, taken.supply, taken.profile, taken.linkCheck, fun other kept => ?_,
    ?_, fun other => (table other).trans (h.setQueue_table r rest), State.takesOrder o⟩
  · by_cases snooze : o = .power .snooze
    · subst snooze
      rw [← state, ← State.setQueue_call h r rest] at kept
      rw [← State.setQueue_call h r rest]
      by_cases awake : ((h.setQueue r rest).radio r).state = .starting ∨ ((h.setQueue r rest).radio r).state = .ready
          ∨ ((h.setQueue r rest).radio r).state = .surveying
      · exact State.snoozeTaken_unrung awake fun rings => kept ⟨rfl, rings.1, awake, rings.2⟩
      · exact congrArg State.call (State.snoozeTaken_still awake)
    · exact (call other snooze).trans (h.setQueue_call r rest)
  · rintro ⟨rfl, callback, awake, rings⟩
    rw [← state] at awake
    have rings : (h.setQueue r rest).Rings r := by
      unfold State.Rings
      rw [State.setQueue_call]
      exact ⟨callback, rings⟩
    obtain ⟨stop, lost⟩ := State.snoozeTaken_rang awake rings
    refine ⟨stop, fun p part => ?_⟩
    rw [State.setQueue_call, part] at lost
    exact lost

end Sys2Proof.Machine
end

section
/-! PROOFS. PROGRESS that is refused (R106, R107, R117, R131), offers in CALLBACK and their answers (R90, R141, R142). -/

namespace Sys2Proof.Machine

/-! ### The report that a PROGRESS stands for (R106) -/

section
variable {number kind cause : Nat}

/-- A report whose kind is not defined, or whose cause a radio may not report. -/
theorem reportOf_bad (bad : 5 < kind ∨ ((kind = 3 ∨ kind = 4) ∧ 3 < cause)) : reportOf kind cause = none := by
  have causeless (high : 3 < cause) : reportedCauseOf cause = none := by
    obtain ⟨n, rfl⟩ := Nat.exists_eq_add_of_le' high
    rfl
  rcases bad with high | ⟨rfl | rfl, high⟩
  · obtain ⟨n, rfl⟩ := Nat.exists_eq_add_of_le' high
    rfl
  · exact congrArg (Option.map Report.failed) (causeless high)
  · exact congrArg (Option.map Report.dropped) (causeless high)

theorem reportedCauseOf_good : ∀ {cause : Nat}, cause ≤ 3 → ∃ c, reportedCauseOf cause = some c
  | 0, _ | 1, _ | 2, _ | 3, _ => ⟨_, rfl⟩
  | n + 4, low => absurd low (Nat.not_le_of_lt (Nat.le_add_left 4 n))

theorem reportOf_failed (low : cause ≤ 3) : ∃ c, reportOf 3 cause = some (.failed c) :=
  (reportedCauseOf_good low).imp fun _ => congrArg (Option.map Report.failed)

theorem reportOf_dropped (low : cause ≤ 3) : ∃ c, reportOf 4 cause = some (.dropped c) :=
  (reportedCauseOf_good low).imp fun _ => congrArg (Option.map Report.dropped)

/-- The kind that a report has on the port (R106). -/
def Report.code : Report → Nat
  | .accepted => 0
  | .alerting => 1
  | .connected => 2
  | .failed _ => 3
  | .dropped _ => 4
  | .cleared => 5

theorem cause_good (good : ¬ (5 < kind ∨ ((kind = 3 ∨ kind = 4) ∧ 3 < cause))) (caused : kind = 3 ∨ kind = 4) : cause ≤ 3 :=
  Nat.le_of_not_lt fun high => good (.inr ⟨caused, high⟩)

/-- A report that is not refused for its fields has its kind. -/
theorem reportOf_good : ∀ {kind cause : Nat}, ¬ (5 < kind ∨ ((kind = 3 ∨ kind = 4) ∧ 3 < cause)) →
    ∃ x, reportOf kind cause = some x ∧ x.code = kind
  | 0, _, _ => ⟨.accepted, rfl, rfl⟩
  | 1, _, _ => ⟨.alerting, rfl, rfl⟩
  | 2, _, _ => ⟨.connected, rfl, rfl⟩
  | 3, _, good => (reportOf_failed (cause_good good (.inl rfl))).elim fun _ eq => ⟨_, eq, rfl⟩
  | 4, _, good => (reportOf_dropped (cause_good good (.inr rfl))).elim fun _ eq => ⟨_, eq, rfl⟩
  | 5, _, _ => ⟨.cleared, rfl, rfl⟩
  | n + 6, _, good => absurd (.inl (Nat.le_add_left 6 n)) good

/-- The kinds that move a wanted attempt forward, by its step (R107). -/
theorem Report.moves_code : ∀ {x : Report} {step : AttemptStep}, x.moves step = true →
    (x.code = 0 ∧ step = .taken) ∨ (x.code = 1 ∧ (step = .taken ∨ step = .accepted))
      ∨ ((x.code = 2 ∨ x.code = 3) ∧ (step = .taken ∨ step = .accepted ∨ step = .alerting))
      ∨ (x.code = 4 ∧ step = .connected)
  | .accepted, .taken, _ => .inl ⟨rfl, rfl⟩
  | .alerting, .taken, _ => .inr (.inl ⟨rfl, .inl rfl⟩)
  | .alerting, .accepted, _ => .inr (.inl ⟨rfl, .inr rfl⟩)
  | .connected, .taken, _ => .inr (.inr (.inl ⟨.inl rfl, .inl rfl⟩))
  | .connected, .accepted, _ => .inr (.inr (.inl ⟨.inl rfl, .inr (.inl rfl)⟩))
  | .connected, .alerting, _ => .inr (.inr (.inl ⟨.inl rfl, .inr (.inr rfl)⟩))
  | .failed _, .taken, _ => .inr (.inr (.inl ⟨.inr rfl, .inl rfl⟩))
  | .failed _, .accepted, _ => .inr (.inr (.inl ⟨.inr rfl, .inr (.inl rfl)⟩))
  | .failed _, .alerting, _ => .inr (.inr (.inl ⟨.inr rfl, .inr (.inr rfl)⟩))
  | .dropped _, .connected, _ => .inr (.inr (.inr ⟨rfl, rfl⟩))

end

/-! ### PROGRESS at the call controller -/

section
variable {s : State} {r : Radio} {number kind cause : Nat}

/-- What a PROGRESS that passes step 1 of R106 is answered, once its handling is known. -/
theorem progress_next (speaks : s.Speaks r) {x : Report} (report : reportOf kind cause = some x) {t : State} {y : Response}
    (eq : (s.heardOn r).progressReport r number x = (t, y)) :
    exec (.progress (.radio r) number kind cause) s = .next ((settle (s.heardOn r) t).answered (.radio r) y) := by
  refine State.next_radio (f := fun r s => s.progressRequest r number kind cause) speaks ?_
  show State.progressRequest _ r number kind cause = _
  unfold State.progressRequest
  rw [report]
  show (settle _ (State.progressReport _ _ _ _).1, (State.progressReport _ _ _ _).2) = _
  rw [eq]

/-- A PROGRESS whose handling changes nothing. -/
theorem progress_refused (speaks : s.Speaks r) {x : Report} (report : reportOf kind cause = some x) {y : Response}
    (eq : (s.heardOn r).progressReport r number x = (s.heardOn r, y)) :
    exec (.progress (.radio r) number kind cause) s = .next ((s.heardOn r).answered (.radio r) y) := by
  rw [progress_next speaks report eq, settle_same]

theorem progressReport_zero (x : Report) : s.progressReport r 0 x = s.progressZero r x := if_pos rfl

/-- A report on the number of an attempt in flight is that attempt's, where no other attempt is its radio's. -/
theorem State.namedAttempt_of {a : Attempt} (mem : a ∈ s.call.attempts) (radios : (s.call.attempts.map (·.radio)).Nodup) :
    s.namedAttempt a.radio a.number = some a := by
  unfold State.namedAttempt
  cases found : s.call.attempts.find? fun x => x.number == a.number && x.radio == a.radio with
  | none => exact absurd (List.find?_eq_none.1 found a mem) (by simp)
  | some b =>
    have same := List.find?_some found
    rw [Bool.and_eq_true, beq_iff_eq, beq_iff_eq] at same
    rw [List.inj_on_of_nodup_map radios (List.mem_of_find?_eq_some found) mem same.2]

theorem progressReport_named {a : Attempt} (mem : a ∈ s.call.attempts)
    (radios : (s.call.attempts.map (·.radio)).Nodup) (some : a.number ≠ 0) (x : Report) :
    s.progressReport a.radio a.number x = s.progressAttempt a x := by
  unfold State.progressReport
  rw [if_neg some, State.namedAttempt_of mem radios]

/-- A report on a number that is no attempt's of the radio. -/
theorem progressReport_stranger (some : number ≠ 0) (none : ∀ a ∈ s.call.attempts, a.number ≠ number ∨ a.radio ≠ r)
    (x : Report) : s.progressReport r number x = (s, only .stale) := by
  have absent : s.namedAttempt r number = .none := by
    refine List.find?_eq_none.2 fun a mem => ?_
    rcases none a mem with k | k <;> simp [k]
  unfold State.progressReport
  rw [if_neg some, absent]

theorem progressAttempt_wanted {a : Attempt} (wanted : a.disposition = none) (x : Report) :
    s.progressAttempt a x = s.progressWanted a x := by
  unfold State.progressAttempt
  rw [wanted]

theorem progressAttempt_cancelled {a : Attempt} (cancelled : a.disposition = some .cancel) (x : Report) :
    s.progressAttempt a x = s.progressCancelled a x := by
  unfold State.progressAttempt
  rw [cancelled]

theorem progressAttempt_surplus {a : Attempt} (surplus : a.disposition = some .surplus) (x : Report) :
    s.progressAttempt a x = s.progressSurplus a x := by
  unfold State.progressAttempt
  rw [surplus]

theorem advanceDisposed_still {a : Attempt} {x : Report} (still : x.moves a.step = false) (step : AttemptStep) :
    s.advanceDisposed a x step = (s, only .outOfOrder) := by
  unfold State.advanceDisposed
  rw [still]
  rfl

theorem progressWanted_still {a : Attempt} {x : Report} (still : x.moves a.step = false) :
    s.progressWanted a x = (s, only .outOfOrder) := by
  unfold State.progressWanted
  rw [still]
  rfl

/-- ACCEPTED does not move a disposed attempt that has been accepted, or is not taken yet (R117, R131). -/
theorem progressAttempt_accepted {a : Attempt} (disposed : a.disposition ≠ none) (stays : a.step ≠ .taken) :
    s.progressAttempt a .accepted = (s, only .outOfOrder) := by
  have still : Report.accepted.moves a.step = false := by cases now : a.step <;> first | rfl | exact absurd now stays
  match given : a.disposition with
  | none => exact absurd given disposed
  | some .cancel => exact (progressAttempt_cancelled given _).trans (advanceDisposed_still still _)
  | some .surplus => exact (progressAttempt_surplus given _).trans (advanceDisposed_still still _)

/-- ALERTING does not move a disposed attempt that alerts already, is connected, or is not taken yet (R117, R131). -/
theorem progressAttempt_alerting {a : Attempt} (disposed : a.disposition ≠ none) (later : a.step ≠ .taken)
    (latest : a.step ≠ .accepted) : s.progressAttempt a .alerting = (s, only .outOfOrder) := by
  have still : Report.alerting.moves a.step = false := by
    cases now : a.step <;> first | rfl | exact absurd now later | exact absurd now latest
  match given : a.disposition with
  | none => exact absurd given disposed
  | some .cancel => exact (progressAttempt_cancelled given _).trans (advanceDisposed_still still _)
  | some .surplus => exact (progressAttempt_surplus given _).trans (advanceDisposed_still still _)

/-- A report on number 0 where the radio has no offer. -/
theorem progressZero_stranger (none : ∀ p o, s.call.part = some p → p.offer = some o → o.radio ≠ r) (x : Report) :
    s.progressZero r x = (s, only .stale) := by
  unfold State.progressZero
  split
  · rename_i p part
    split
    · rename_i o offer
      rw [if_neg (none p o part offer)]
    · rfl
  · rfl

end

/-- Settles O52: each refusal by the step of R106 that makes it. -/
theorem progressRefused : Obligations.ProgressRefused := by
  intro s r number kind cause speaks
  dsimp only
  refine ⟨fun bad => ?_, fun good zero none => ?_, fun good nonzero none => ?_, fun a mem good nonzero hn hr radios => ?_⟩
  · refine State.next_radio (f := fun r s => s.progressRequest r number kind cause) speaks ?_
    show State.progressRequest _ r number kind cause = _
    unfold State.progressRequest
    rw [reportOf_bad bad]
    rfl
  · obtain ⟨x, report, -⟩ := reportOf_good good
    subst zero
    exact progress_refused speaks report ((progressReport_zero x).trans (progressZero_stranger none x))
  · obtain ⟨x, report, -⟩ := reportOf_good good
    exact progress_refused speaks report (progressReport_stranger nonzero none x)
  · subst hn hr
    have refused {x : Report} {y : Response} (report : reportOf kind cause = some x)
        (eq : (s.heardOn a.radio).progressAttempt a x = (s.heardOn a.radio, y)) :=
      progress_refused speaks report ((progressReport_named mem radios nonzero x).trans eq)
    refine ⟨fun wanted stays => ?_, fun disposed stays => ?_, fun cancel connected => ?_, fun cancel stays => ?_,
      fun surplus connected => ?_, fun surplus dropped => ?_⟩
    · obtain ⟨x, report, rfl⟩ := reportOf_good good
      exact refused report ((progressAttempt_wanted wanted x).trans (progressWanted_still
        (Bool.eq_false_iff.2 fun moves => stays (Report.moves_code moves))))
    · rcases stays with ⟨rfl, stays⟩ | ⟨rfl, later, latest⟩
      · exact refused (x := .accepted) rfl (progressAttempt_accepted disposed stays)
      · exact refused (x := .alerting) rfl (progressAttempt_alerting disposed later latest)
    · subst connected
      exact refused (x := .connected) rfl (progressAttempt_cancelled cancel _)
    · rcases stays with ⟨rfl, leg⟩ | ⟨rfl, noLeg⟩
      · obtain ⟨c, report⟩ := reportOf_failed (cause_good good (.inl rfl))
        exact refused report ((progressAttempt_cancelled cancel _).trans (if_pos leg))
      · obtain ⟨c, report⟩ := reportOf_dropped (cause_good good (.inr rfl))
        exact refused report ((progressAttempt_cancelled cancel _).trans (if_neg noLeg))
    · subst connected
      exact refused (x := .connected) rfl (progressAttempt_surplus surplus _)
    · subst dropped
      obtain ⟨c, report⟩ := reportOf_dropped (cause_good good (.inr rfl))
      exact refused report (progressAttempt_surplus surplus _)

/-- What every operation of the blocks leaves of the settings (R46, R155, R168). -/
theorem Inner.settings {s t : State} (h : Inner s t) : s.settingsKept t := ⟨h.same.prefs, h.same.supply, h.same.profile⟩

/-! ### The end of a survey where the call runs no selection -/

section
variable {s : State} {r : Radio}

/-- Once the scan has been counted and the radio is READY, what is left of the end of a survey changes orders and surveys
alone, but for the RADIO notice. -/
theorem State.finishSurvey_deaf (surveying : (s.radio r).state = .surveying)
    (deaf : (s.scanned r).callEvent r = s.scanned r) :
    Quiet (s.scanned r) (s.finishSurvey r) ∧ Posts (s.scanned r) (s.finishSurvey r)
      ∧ Stirs (· = r) (s.scanned r) (s.finishSurvey r) := by
  rw [State.finishSurvey_surveying surveying, deaf]
  have rest : Schedules (· = r) (s.scanned r) ((s.scanned r).surveyEndRest r) :=
    State.surveyEndRest_schedules _ r (.inl rfl)
  have test := State.snoozeTest_tends (e := (· = r)) (((s.scanned r).surveyEndRest r).post .radio) false
  exact ⟨rest.quiet.trans ((State.post_quiet _ _).trans test.quiet), rest.posts.trans ((State.post_posts _ _).trans test.posts),
    rest.stirs.trans ((State.post_stirs _ _).trans test.stirs)⟩

theorem State.scanned_core (s : State) (r q : Radio) :
    (s.scanned r).core q = if q = r then (s.core q).enter .ready else s.core q := by
  unfold State.scanned
  rw [(State.readied_around _ r).core, State.setRadioState_core,
    (State.surveyEndFirst_schedules (e := NoneEnds) s r true).quiet.core]

theorem State.scanned_posts (s : State) (r : Radio) : Posts s (s.scanned r) :=
  (State.surveyEndFirst_schedules (e := NoneEnds) s r true).posts.trans
    ((State.setRadioState_posts _ r _).trans (State.mapTable_posts _ _))

end

/-! ### Offers (R141, R142) -/

section
variable {s : State} {r : Radio}

/-- The call record with an offer of the radio, RINGING (R141). -/
def CallRecord.offered (c : CallRecord) (r : Radio) : CallRecord :=
  { c with part := c.part.map fun p => { p with offer := some ⟨r, .ringing, none⟩ } }

/-- The call record with its offer ANSWERING (R142). -/
def CallRecord.answering (c : CallRecord) : CallRecord :=
  { c with part := c.part.map fun p => { p with
      counting := false, offer := p.offer.map fun o => { o with ring := .answering } } }

/-- The offer stands in the part, and RING has been posted (R141). -/
def State.rung (s : State) (r : Radio) : State := (s.mapCall (·.offered r)).post .ring

theorem State.rung_radio (q : Radio) : (s.rung r).radio q = s.radio q := State.radio_of_radios (State.post_radios _ _) q

theorem State.rung_call : (s.rung r).call = s.call.offered r := State.post_call _ _

theorem State.recordOffer_eq : s.recordOffer r =
    (if (s.radio r).state = .surveying then (s.rung r).finishSurvey r else s.rung r).snoozeTest false := by
  unfold State.recordOffer
  dsimp only
  rw [← State.rung_radio (s := s) (r := r) r]
  rfl

/-- What the recording of an offer leaves in CALLBACK (R141). -/
theorem State.recordOffer_left (callback : s.call.state = .callback) :
    (s.recordOffer r).call = s.call.offered r ∧ ((s.recordOffer r).port .station).pending.ring = true
    ∧ (s.recordOffer r).journal = s.journal ∧ s.settingsKept (s.recordOffer r)
    ∧ s.radioKept (s.recordOffer r) (otherRadio r)
    ∧ ((s.radio r).state = .surveying → ((s.recordOffer r).radio r).state = .ready
      ∧ ∀ u w x, (s.recordOffer r).surveyOf r ≠ .running u w x)
    ∧ ((s.radio r).state ≠ .surveying → s.radioKept (s.recordOffer r) r ∧ (s.recordOffer r).table = s.table) := by
  have rang : ((s.rung r).port .station).pending.ring = true := State.post_posted _ .ring
  have core (q : Radio) : (s.rung r).core q = s.core q := State.core_of_radios (State.post_radios _ _)
  have journal : (s.rung r).journal = s.journal := State.post_journal _ _
  have settings := (s.recordOffer_inner r).settings
  rw [State.recordOffer_eq] at *
  by_cases surveying : (s.radio r).state = .surveying
  · rw [if_pos surveying] at *
    have scanning : ((s.rung r).radio r).state = .surveying := by rw [State.rung_radio, surveying]
    obtain ⟨quiet, posts, -⟩ := State.finishSurvey_deaf scanning (by
      have call := ((s.rung r).scanned_call r).trans State.rung_call
      refine State.callEvent_deaf r ?_ ?_ ?_ <;> rw [call] <;> unfold CallRecord.offered <;> rw [callback] <;> decide)
    have test := State.snoozeTest_tends (e := NoneEnds) ((s.rung r).finishSurvey r) false
    have whole := quiet.trans test.quiet
    refine ⟨?_, ?_, ?_, settings, ?_, fun _ => ⟨?_, ?_⟩, fun no => absurd surveying no⟩
    · rw [whole.call, State.scanned_call, State.rung_call]
    · exact ((State.scanned_posts _ r).trans (posts.trans test.posts)) .ring (by decide) rang
    · rw [whole.journal, State.scanned_journal, journal]
    · rw [State.radioKept_iff, whole.core, State.scanned_core, if_neg (otherRadio_ne r), core]
    · rw [whole.state, State.scanned_state]
    · refine (SurveyState.isRunning_eq_false _).1 (test.stopped ?_)
      exact (SurveyState.isRunning_eq_false _).2 ((s.rung r).finishSurvey_stopped r)
  · rw [if_neg surveying] at *
    have test := State.snoozeTest_tends (e := NoneEnds) (s.rung r) false
    refine ⟨?_, test.posts .ring (by decide) rang, ?_, settings, ?_, fun yes => absurd yes surveying, fun _ => ⟨?_, ?_⟩⟩
    · rw [test.quiet.call, State.rung_call]
    · rw [test.quiet.journal, journal]
    · rw [State.radioKept_iff, test.quiet.core, core]
    · rw [State.radioKept_iff, test.quiet.core, core]
    · rw [test.quiet.table]
      exact State.post_table _ _

/-- An ANSWER is queued to the offering radio, which is then not sent to SNOOZE (R66, R142). -/
theorem State.queueAnswer_queue (on : (s.radio r).state ≠ .off) (live : (s.radio r).state ≠ .fault) :
    ((s.queueAnswer r).radio r).queue.getLast? = some (.callback .answer)
    ∧ .power .snooze ∉ ((s.queueAnswer r).radio r).queue := by
  have state := (State.dropSnooze_quiet s r).state r
  unfold State.queueAnswer
  rw [State.queue_enqueue, if_pos ⟨rfl, by rwa [state], by rwa [state]⟩]
  refine ⟨List.getLast?_concat .., fun mem => ?_⟩
  rcases List.mem_append.1 mem with mem | mem
  · exact State.dropSnooze_none _ _ (mem_dropKind.1 mem).1
  · cases List.mem_singleton.1 mem

theorem State.queueAnswer_radio_other {q : Radio} (ne : q ≠ r) : (s.queueAnswer r).radio q = s.radio q := by
  refine State.radio_of_queue (((State.dropSnooze_quiet s r).trans (State.enqueue_quiet _ _ _)).core q) ?_
  unfold State.queueAnswer
  rw [State.queue_enqueue, if_neg fun h => ne h.1, State.dropSnooze_queue, if_neg fun h => ne h.1]

theorem State.queueAnswer_rest : { s.queueAnswer r with radios := s.radios, ports := s.ports } = s :=
  (congrArg (fun x : State => { x with radios := s.radios, ports := s.ports })
    (State.enqueue_rest (s.dropSnooze r) r (.callback .answer))).trans (State.dropSnooze_rest s r)

/-- What the answering of an offer leaves (R142). -/
theorem State.answerOffer_left : (s.answerOffer r).call = s.call.answering
    ∧ ((s.radio r).state ≠ .off → (s.radio r).state ≠ .fault →
      ((s.answerOffer r).radio r).queue.getLast? = some (.callback .answer)
      ∧ .power .snooze ∉ ((s.answerOffer r).radio r).queue)
    ∧ (∀ q, s.radioKept (s.answerOffer r) q) ∧ (s.answerOffer r).radio (otherRadio r) = s.radio (otherRadio r)
    ∧ { s.answerOffer r with call := s.call, radios := s.radios, ports := s.ports } = s := by
  have quiet : Quiet s (s.queueAnswer r) := (State.dropSnooze_quiet s r).trans (State.enqueue_quiet _ _ _)
  refine ⟨?_, State.queueAnswer_queue, fun q => quiet.radio q, State.queueAnswer_radio_other (otherRadio_ne r), ?_⟩
  · exact congrArg CallRecord.answering quiet.call
  · exact (congrArg (fun x : State => { x with call := s.call }) State.queueAnswer_rest : _)

end

section
variable {s : State} {r : Radio}

theorem incomingRequest_away (away : s.call.state ≠ .callback ∨ s.call.part = none) :
    s.incomingRequest r = (s, only .notAccepted) := by
  unfold State.incomingRequest
  split
  · next p callback part =>
    rcases away with h | h
    · contradiction
    · cases h.symm.trans part
  all_goals rfl

theorem incomingRequest_callback {p : CallbackPart} (callback : s.call.state = .callback) (part : s.call.part = some p) :
    s.incomingRequest r = if p.offer.isSome then (s, only .busy)
      else if s.isHeldRadio r || s.radioReady r then (s.recordOffer r, only .ok) else (s, only .notAccepted) := by
  unfold State.incomingRequest
  rw [callback, part]

/-- A radio that is READY, as the call controller asks for it. -/
theorem State.radioReady_iff : s.radioReady r = true ↔ (s.radio r).state = .ready := by
  unfold State.radioReady
  exact beq_iff_eq

/-- A ringing offer is answered by ANSWER and by CALL START (R90, R142). -/
theorem offer_answered {p : CallbackPart} {x : Option Time} (callback : s.call.state = .callback)
    (part : s.call.part = some p) (offer : p.offer = some ⟨r, .ringing, x⟩) :
    s.answerRequest = (s.answerOffer r, only .ok) ∧ s.startRequest = (s.answerOffer r, only .ok) := by
  have offers : s.offer = some ⟨r, .ringing, x⟩ := by
    unfold State.offer
    rw [part]
    exact offer
  constructor
  · unfold State.answerRequest
    rw [callback, offers]
  · unfold State.startRequest State.startInCallback
    rw [callback, part]
    dsimp only
    rw [offer]

/-- An offer that has been answered, or whose leg is up, is answered already (R142). -/
theorem answer_again {p : CallbackPart} {o : Offer} (part : s.call.part = some p) (offer : p.offer = some o)
    (now : (s.call.state = .callback ∧ o.ring = .answering)
      ∨ ((s.call.state = .connected ∨ s.call.state = .ending) ∧ o.connected ≠ none)) :
    s.answerRequest = (s, only .answered) := by
  have offers : s.offer = some o := by
    unfold State.offer
    rw [part]
    exact offer
  obtain ⟨radio, ring, connected⟩ := o
  unfold State.answerRequest
  rcases now with ⟨callback, rfl⟩ | ⟨state, up⟩
  · rw [callback, offers]
  · have leg : s.legUp = true := by
      unfold State.legUp
      rw [part]
      show p.offer.any _ = true
      rw [offer]
      exact Option.isSome_iff_ne_none.2 up
    rcases state with k | k <;> rw [k, leg] <;> rfl

/-- There is nothing to answer (R142). -/
theorem answer_nothing (nothing : (s.call.state ≠ .callback ∧ s.call.state ≠ .connected ∧ s.call.state ≠ .ending)
    ∨ s.call.part = none ∨ (∃ p, s.call.part = some p ∧ p.offer = none)
    ∨ (s.call.state ≠ .callback ∧ ∃ p o, s.call.part = some p ∧ p.offer = some o ∧ o.connected = none)) :
    s.answerRequest = (s, only .noneCode) := by
  have silent (none : s.offer = none) : s.answerRequest = (s, only .noneCode) := by
    have leg : s.legUp = false := by
      unfold State.legUp
      unfold State.offer at none
      cases part : s.call.part with
      | none => rfl
      | some p =>
        rw [part] at none
        show p.offer.any _ = false
        rw [show p.offer = Option.none from none]
        rfl
    unfold State.answerRequest
    rw [none, leg]
    split <;> rfl
  rcases nothing with ⟨callback, connected, ending⟩ | part | ⟨p, part, offer⟩ | ⟨callback, p, o, part, offer, down⟩
  · unfold State.answerRequest
    split <;> first | contradiction | rfl
  · refine silent ?_
    unfold State.offer
    rw [part]
    rfl
  · refine silent ?_
    unfold State.offer
    rw [part]
    exact offer
  · have leg : s.legUp = false := by
      unfold State.legUp
      rw [part]
      show p.offer.any _ = false
      rw [offer]
      show o.connected.isSome = false
      rw [down]
      rfl
    unfold State.answerRequest
    rw [leg]
    split <;> first | contradiction | rfl

end

/-- Settles O51: the offer is recorded and answered, or each refusal by the call state and the part. -/
theorem incomingAndAnswer : Obligations.IncomingAndAnswer := by
  refine ⟨fun s r speaks => ?_, fun s listens => ?_⟩
  · dsimp only
    have request {t : State} {x : Response} (eq : (s.heardOn r).incomingRequest r = (t, x)) :
        exec (.incoming (.radio r)) s = .next (t.answered (.radio r) x) :=
      State.next_radio (f := fun r s => s.incomingRequest r) speaks eq
    generalize s.heardOn r = h at request
    refine ⟨fun away => request (incomingRequest_away away), fun p callback part => ?_⟩
    have eq := incomingRequest_callback (r := r) callback part
    refine ⟨fun busy => request ?_, fun free other away => request ?_, fun free near => ⟨h.recordOffer r, request ?_, ?_⟩⟩
    · rw [eq, if_pos (Option.isSome_iff_ne_none.2 busy)]
      rfl
    · have held : h.isHeldRadio r = false := Bool.eq_false_iff.2 fun yes => by
        obtain ⟨p', k, part', held, radio⟩ := (h.isHeldRadio_iff r).1 yes
        cases part.symm.trans part'
        exact other k held radio
      have ready : h.radioReady r = false := Bool.eq_false_iff.2 fun yes => away (State.radioReady_iff.1 yes)
      rw [eq, free, held, ready]
      rfl
    · have taken : (h.isHeldRadio r || h.radioReady r) = true := by
        rw [Bool.or_eq_true]
        rcases near with ⟨k, held, radio⟩ | ready
        · exact .inl ((h.isHeldRadio_iff r).2 ⟨p, k, part, held, radio⟩)
        · exact .inr (State.radioReady_iff.2 ready)
      rw [eq, free, if_neg (by decide), if_pos taken]
      rfl
    · obtain ⟨call, rest⟩ := State.recordOffer_left (r := r) callback
      refine ⟨call.trans ?_, rest⟩
      unfold CallRecord.offered
      rw [part]
      rfl
  · dsimp only
    have answers {t : State} {x : Response} (eq : (s.opened .station).answerRequest = (t, x)) :
        exec (.answer .station) s = .next (t.answered .station x) :=
      State.next_station (f := (·.answerRequest)) listens eq
    have starts {t : State} {x : Response} (eq : (s.opened .station).startRequest = (t, x)) :
        exec (.callStart .station) s = .next (t.answered .station x) :=
      State.next_station (f := (·.startRequest)) listens eq
    generalize s.opened .station = h at answers starts
    refine ⟨fun p r x callback part offer => ?_, fun p o part offer now => answers (answer_again part offer now),
      fun nothing => answers (answer_nothing nothing)⟩
    obtain ⟨answered, started⟩ := offer_answered callback part offer
    obtain ⟨call, rest⟩ := State.answerOffer_left (s := h) (r := r)
    refine ⟨_, answers answered, starts started, call.trans ?_, rest⟩
    unfold CallRecord.answering
    rw [part]
    rw [Option.map_some, offer]
    rfl

end Sys2Proof.Machine
end

section
/-! PROOFS. What the end of an attempt leaves, its target's pin included (R13, R112, R116, R118, R119, R132). -/

namespace Sys2Proof.Machine

/-! ### Pins (R13) -/

/-- The radio of an entry that is pinned. -/
def Entry.pinner (e : Entry) : Option Radio := if e.pin then some e.radio else none

/-- The radio of the pinned entry of a slot. -/
def State.pinOf (s : State) (i : Nat) : Option Radio := (s.entry i).bind Entry.pinner

section
variable {s t : State} {i j : Nat} {r : Radio}

theorem State.pinOf_none : s.pinOf i = none ↔ s.Unpinned i := by
  unfold State.pinOf State.Unpinned
  cases s.entry i with
  | none => simp
  | some e => simp [Entry.pinner]

theorem Entry.fadeStep_pinner (p : Profile) (e : Entry) : (e.fadeStep p).pinner = e.pinner := by
  unfold Entry.fadeStep
  split
  · rfl
  · split <;> rfl

theorem Entry.lostStep_pinner (p : Profile) (e : Entry) : (e.lostStep p).pinner = e.pinner := by
  unfold Entry.lostStep
  split
  · rfl
  · split <;> rfl

theorem Entry.releaseStep_pinner (p : Profile) (e : Entry) : (e.releaseStep p).bind Entry.pinner = e.pinner := by
  unfold Entry.releaseStep
  split
  · rfl
  · next old =>
    split
    · unfold Entry.pinner
      cases pin : e.pin
      · rfl
      · simp [pin] at old
    · rfl
    · rfl

/-- No pin changes as the age is compared (R5, R13). -/
theorem Entry.thresholds_pinner (p : Profile) (e : Entry) : (e.thresholds p).bind Entry.pinner = e.pinner := by
  unfold Entry.thresholds
  rw [Entry.releaseStep_pinner, Entry.lostStep_pinner, Entry.fadeStep_pinner]

theorem Entry.returned_pinner (p : Profile) (e : Entry) : (e.returned p r).bind Entry.pinner = e.pinner := by
  unfold Entry.returned
  split
  · split
    · next held =>
      rw [Entry.thresholds_pinner]
      unfold Entry.unhold
      rw [held]
      rfl
    · rfl
    · rfl
  · rfl

theorem Entry.unpinned_pinner (p : Profile) (e : Entry) : (e.unpinned p).bind Entry.pinner = none := by
  unfold Entry.unpinned
  split
  · rw [Entry.thresholds_pinner]
    rfl
  · next not =>
    show e.pinner = none
    simp [Entry.pinner, not]

end

/-! ### The target of an attempt that ends (R13, R14, R36) -/

/-- An entry whose attempt has ended with the outcome, excluded or not. -/
def Entry.left (p : Profile) (o : OutcomeEvent) (exclude : Bool) (e : Entry) : Option Entry :=
  ((e.outcome p.biases o).unpinned p).map fun e => if exclude then e.excluded p else e

/-- The table once the outcome of an attempt on the slot has reached it. -/
def State.slotLeft (s : State) (i : Nat) (o : OutcomeEvent) (exclude : Bool) : State :=
  if exclude then ((s.outcomeEvent i o).unpinSlot i).excludeSlot i else (s.outcomeEvent i o).unpinSlot i

section
variable (s : State) (i : Nat) (o : OutcomeEvent) (exclude : Bool)

theorem State.slotLeft_tables : Tables s (s.slotLeft i o exclude) := by
  have unpinned : Tables s ((s.outcomeEvent i o).unpinSlot i) :=
    (s.outcomeEvent_tables i o).trans (State.unpinSlot_tables _ i)
  unfold State.slotLeft
  split
  · exact unpinned.trans (State.excludeSlot_tables _ i)
  · exact unpinned

theorem State.slotLeft_posts : Posts s (s.slotLeft i o exclude) := by
  have unpinned : Posts s ((s.outcomeEvent i o).unpinSlot i) := (s.outcomeEvent_posts i o).trans (State.unpinSlot_posts _ i)
  unfold State.slotLeft
  exact .ite (fun _ => unpinned.trans (State.excludeSlot_posts _ i)) fun _ => unpinned

theorem State.slotLeft_entry (j : Nat) : (s.slotLeft i o exclude).entry j =
    if j = i then (s.entry j).bind (·.left s.profile o exclude) else s.entry j := by
  have same := (s.outcomeEvent_tables i o).profile
  have unpinned : ((s.outcomeEvent i o).unpinSlot i).entry j = if j = i then
      (s.entry j).bind fun e => (e.outcome s.profile.biases o).unpinned s.profile else s.entry j := by
    rw [State.unpinSlot_entry, State.outcomeEvent_entry, same]
    split
    · cases s.entry j <;> rfl
    · rfl
  unfold State.slotLeft Entry.left
  cases exclude
  · rw [if_neg (by decide), unpinned]
    split
    · cases s.entry j with
      | none => rfl
      | some e => show _ = Option.map id _; rw [Option.map_id]; rfl
    · rfl
  · rw [if_pos rfl, State.excludeSlot_entry, unpinned, (State.unpinSlot_tables _ i).profile, same]
    split
    · cases s.entry j <;> rfl
    · rfl

end

theorem Entry.left_pinner (p : Profile) (o : OutcomeEvent) (exclude : Bool) (e : Entry) :
    (e.left p o exclude).bind Entry.pinner = none := by
  unfold Entry.left
  have none := (e.outcome p.biases o).unpinned_pinner p
  cases h : (e.outcome p.biases o).unpinned p with
  | none => rfl
  | some f =>
    rw [h] at none
    cases exclude <;> exact none

/-- The state of a radio that the call controller releases (R69). -/
def RadioState.released : RadioState → RadioState
  | .attempting | .inCall => .ready
  | .off => .off
  | .starting => .starting
  | .ready => .ready
  | .surveying => .surveying
  | .snooze => .snooze
  | .silent => .silent
  | .fault => .fault

theorem RadioContext.released_state (c : RadioContext) : c.released.state = c.state.released := by
  unfold RadioContext.released
  cases h : c.state <;> first | rfl | exact h

theorem State.release_state (s : State) (r q : Radio) :
    ((s.release r).radio q).state = if q = r then (s.radio q).state.released else (s.radio q).state := by
  refine (congrArg RadioContext.state (s.release_core r q) : _).trans ?_
  split
  · exact RadioContext.released_state _
  · rfl

/-- The entry of a radio that the call controller releases. -/
def State.comeBack (s : State) (r : Radio) (e : Entry) : Option Entry :=
  if (s.radio r).state = .attempting ∨ (s.radio r).state = .inCall then e.returned s.profile r else some e

theorem State.release_entry_eq (s : State) (r : Radio) (i : Nat) :
    (s.release r).entry i = (s.entry i).bind (s.comeBack r) := by
  by_cases busy : s.Busy r
  · rw [State.release_busy busy, (State.readyNeighbours_quiet _ r).entry, State.readied_entry,
      show s.comeBack r = (·.returned s.profile r) from funext fun _ => if_pos busy]
  · rw [State.release_free busy, show s.comeBack r = some from funext fun _ => if_neg busy]
    cases s.entry i <;> rfl

theorem State.comeBack_kept {s : State} {r : Radio} {e : Entry} (other : e.radio ≠ r ∨ ∀ g, e.state ≠ .held g) :
    s.comeBack r e = some e := by
  unfold State.comeBack
  split
  · exact Entry.returned_other other
  · rfl

theorem State.comeBack_pinner (s : State) (r : Radio) (e : Entry) : (s.comeBack r e).bind Entry.pinner = e.pinner := by
  unfold State.comeBack
  split
  · exact e.returned_pinner _
  · rfl

/-! ### The end of an attempt (R112, R116, R118, R120) -/

/-- An attempt has ended in the state `s`: from `u`, in which its orders are gone and its target has been left as `left` says,
its radio has been released and the record `x` written, and `t` is the outcome. -/
structure State.Quits (s u t : State) (a : Attempt) (left : Entry → Option Entry) (x : JournalRecord) : Prop where
  call : t.call = { u.call with attempts := u.call.attempts.filter fun b => b.number != a.number }
  core : ∀ q, t.core q = if q = a.radio then (u.core q).released else u.core q
  mem : ∀ q (o : Order), o.kind ≠ .survey → o.kind ≠ .power → (o ∈ (t.radio q).queue ↔ o ∈ (u.radio q).queue)
  entry : ∀ j, t.entry j = (if j = a.slot then (s.entry j).bind left else s.entry j).bind (s.comeBack a.radio)
  journal : s.journal.records.length < 32 → t.journal = { s.journal with records := s.journal.records ++ [x] }
  posts : Posts u t
  posted : s.Busy a.radio → (t.port .station).pending.radio = true
  settings : s.settingsKept t

section
variable {s u t : State} {a : Attempt} {left : Entry → Option Entry} {x : JournalRecord}

theorem State.quits_of {c : CallRecord} {o : RecordOutcome} (call : u.call = c) (number : c.number = s.call.number)
    (settings : s.settingsKept u) (journal : u.journal = s.journal)
    (state : ∀ q, (u.radio q).state = (s.radio q).state)
    (entry : ∀ j, u.entry j = if j = a.slot then (s.entry j).bind left else s.entry j) :
    s.Quits u ((u.release a.radio).closeAttempt a o) a left (s.attemptRecord a o none) where
  call := by rw [State.closeAttempt_call, State.release_call]
  core q := by rw [State.closeAttempt_core, State.release_core]
  mem q o survey power := by rw [State.closeAttempt_radio, State.release_mem u a.radio q survey power]
  entry j := by
    rw [State.closeAttempt_entry, State.release_entry_eq, entry]
    unfold State.comeBack
    rw [state, settings.2.2]
  journal room := by
    rw [State.closeAttempt_journal _ _ _ (by rw [State.release_journal, journal]; exact room), State.release_journal, journal]
    rw [State.attemptRecord_congr (s := s) (t := u.release a.radio)]
    · rw [State.release_call, call, number]
    · rw [State.release_journal, journal]
  posts := (u.release_posts a.radio).trans (State.closeAttempt_posts _ a o)
  posted busy := by
    have busy : u.Busy a.radio := by
      unfold State.Busy
      rw [state]
      exact busy
    exact State.closeAttempt_posts _ a o .radio (by decide) (State.release_posted busy)
  settings := by
    have released := (u.release_inner a.radio).settings
    exact ⟨released.1.trans settings.1, released.2.1.trans settings.2.1, released.2.2.trans settings.2.2⟩

namespace State.Quits

theorem kept (h : s.Quits u t a left x) {j : Nat} {e : Entry} (ne : j ≠ a.slot) (entry : s.entry j = some e)
    (other : e.radio ≠ a.radio ∨ ∀ g, e.state ≠ .held g) : t.entry j = some e := by
  rw [h.entry, if_neg ne, entry]
  exact State.comeBack_kept other

theorem free (h : s.Quits u t a left x) {j : Nat} (entry : s.entry j = none) : t.entry j = none := by
  rw [h.entry, entry]
  split <;> rfl

/-- The target is unpinned, and no other pin has changed. -/
theorem pinOf (h : s.Quits u t a left x) (unpins : ∀ e, (left e).bind Entry.pinner = none) (j : Nat) :
    t.pinOf j = if j = a.slot then none else s.pinOf j := by
  have back (o : Option Entry) : (o.bind (s.comeBack a.radio)).bind Entry.pinner = o.bind Entry.pinner := by
    cases o with
    | none => rfl
    | some e => exact s.comeBack_pinner _ e
  unfold State.pinOf
  rw [h.entry, back]
  split
  · cases s.entry j with
    | none => rfl
    | some e => exact unpins e
  · rfl

theorem unpinned (h : s.Quits u t a left x) (unpins : ∀ e, (left e).bind Entry.pinner = none) : t.Unpinned a.slot := by
  rw [← State.pinOf_none, h.pinOf unpins, if_pos rfl]

end State.Quits

theorem State.settingsKept.trans {s t u : State} (h : s.settingsKept t) (k : t.settingsKept u) : s.settingsKept u :=
  ⟨k.1.trans h.1, k.2.1.trans h.2.1, k.2.2.trans h.2.2⟩

/-- The state in which the orders of a quiet end have left. -/
def State.quitting (s : State) (a : Attempt) : State := (s.slotLeft a.slot .noBlame false).dropAttemptOrder a.radio a.number

/-- What an end without blame leaves (R118, R119, R132). -/
theorem State.endQuietly_quits (s : State) (a : Attempt) (o : RecordOutcome) :
    s.Quits (s.quitting a) (s.endQuietly a o) a (·.left s.profile .noBlame false) (s.attemptRecord a o none) := by
  have tables := s.slotLeft_tables a.slot .noBlame false
  refine State.quits_of (u := s.quitting a) ((State.dropAttemptOrder_call _ _ _).trans tables.call) rfl
    (tables.around.settings.trans (State.dropAttemptOrder_inner _ _ _).settings) ((State.dropAttemptOrder_journal _ _ _).trans tables.journal)
    (fun q => ?_) fun j => ?_
  · rw [State.quitting, State.dropAttemptOrder_state, tables.radio]
  · rw [State.quitting, State.dropAttemptOrder_entry, State.slotLeft_entry]

/-- An ATTEMPT order with the number waits for the radio. -/
def State.AttemptOrder (s : State) (r : Radio) (n : Nat) : Prop :=
  ∃ b c d e f, Order.attempt n b c d e f ∈ (s.radio r).queue

theorem State.hasAttemptOrder_iff (s : State) (r : Radio) (n : Nat) : s.hasAttemptOrder r n = true ↔ s.AttemptOrder r n := by
  unfold State.hasAttemptOrder State.AttemptOrder
  rw [List.any_eq_true]
  constructor
  · rintro ⟨o, mem, test⟩
    cases o <;> simp at test
    subst test
    exact ⟨_, _, _, _, _, mem⟩
  · rintro ⟨b, c, d, e, f, mem⟩
    exact ⟨_, mem, by simp⟩

theorem State.hasCancelOrder_iff (s : State) (r : Radio) (n : Nat) :
    s.hasCancelOrder r n = true ↔ ∃ c, Order.cancel n c ∈ (s.radio r).queue := by
  unfold State.hasCancelOrder
  rw [List.any_eq_true]
  constructor
  · rintro ⟨o, mem, test⟩
    cases o <;> simp at test
    subst test
    exact ⟨_, mem⟩
  · rintro ⟨c, mem⟩
    exact ⟨_, mem, by simp⟩

theorem State.AttemptOrder.of_radio {s t : State} {r : Radio} {n : Nat} (radio : t.radio r = s.radio r) :
    t.AttemptOrder r n ↔ s.AttemptOrder r n := by
  unfold State.AttemptOrder
  rw [radio]

theorem State.dropAttemptOrder_absent {s : State} {r : Radio} {n : Nat} (no : ¬ s.AttemptOrder r n) :
    s.dropAttemptOrder r n = s := by
  unfold State.dropAttemptOrder
  rw [if_neg fun has => no ((s.hasAttemptOrder_iff r n).1 has)]

theorem State.dropAttemptOrder_present {s : State} {r : Radio} {n : Nat} (yes : s.AttemptOrder r n) (q : Radio) :
    (s.dropAttemptOrder r n).core q = (if q = r then { s.core q with take := none } else s.core q)
    ∧ ((s.dropAttemptOrder r n).radio q).queue = if q = r then dropKind .attempt (s.radio q).queue else (s.radio q).queue := by
  have has := (s.hasAttemptOrder_iff r n).2 yes
  rw [State.dropAttemptOrder_core, State.dropAttemptOrder_queue, has]
  simp only [and_true]

/-! ### The stages of an attempt's end -/

section
variable {s : State} {a : Attempt} {q : Radio}

theorem State.quitting_absent (no : ¬ s.AttemptOrder a.radio a.number) :
    (s.quitting a).radio q = s.radio q := by
  have tables := s.slotLeft_tables a.slot .noBlame false
  unfold State.quitting
  rw [State.dropAttemptOrder_absent fun yes => no ((State.AttemptOrder.of_radio (tables.radio _)).1 yes), tables.radio]

theorem State.quitting_present (yes : s.AttemptOrder a.radio a.number) (q : Radio) :
    (s.quitting a).core q = (if q = a.radio then { s.core q with take := none } else s.core q)
    ∧ ((s.quitting a).radio q).queue
      = if q = a.radio then dropKind .attempt (s.radio q).queue else (s.radio q).queue := by
  have tables := s.slotLeft_tables a.slot .noBlame false
  have here := State.dropAttemptOrder_present ((State.AttemptOrder.of_radio (tables.radio a.radio)).2 yes) q
  rw [tables.core, tables.radio] at here
  exact here

theorem State.quitting_call : (s.quitting a).call = s.call :=
  (State.dropAttemptOrder_call _ _ _).trans (s.slotLeft_tables a.slot .noBlame false).call

theorem State.quitting_posts : Posts s (s.quitting a) :=
  (s.slotLeft_posts _ _ _).trans (State.dropAttemptOrder_posts _ _ _)

variable (s a)

/-- The table and the counts of a failure (R112). -/
def State.failLeft (c : Cause) : State := (s.slotLeft a.slot (.failed c) true).mapCall (·.countFailure a.radio)

/-- The orders of a failure: the attempt's own has left, and a CANCEL RECOVERY stands where one is due (R109, R110). -/
def State.failing (c : Cause) (cancel : Bool) : State :=
  if cancel then ((s.failLeft a c).dropAttemptOrder a.radio a.number).enqueue a.radio (.cancel a.number .recovery)
  else (s.failLeft a c).dropAttemptOrder a.radio a.number

/-- The attempt has failed, and the call state has not followed yet (R112, R113). -/
def State.failed (c : Cause) (cancel : Bool) : State :=
  ((s.failing a c cancel).release a.radio).closeAttempt a (.failed c)

theorem State.failAttempt_eq (c : Cause) (cancel : Bool) : s.failAttempt a c cancel = (s.failed a c cancel).afterFailure := rfl

theorem State.failLeft_radio (c : Cause) (q : Radio) : (s.failLeft a c).radio q = s.radio q :=
  (s.slotLeft_tables a.slot (.failed c) true).radio q

theorem State.failing_call (c : Cause) (cancel : Bool) : (s.failing a c cancel).call = s.call.countFailure a.radio := by
  have call : ((s.failLeft a c).dropAttemptOrder a.radio a.number).call = s.call.countFailure a.radio := by
    rw [State.dropAttemptOrder_call]
    exact congrArg (·.countFailure a.radio) (s.slotLeft_tables a.slot (.failed c) true).call
  unfold State.failing
  split
  · rw [(State.enqueue_quiet _ _ _).call, call]
  · exact call

theorem State.failing_core (c : Cause) (cancel : Bool) (q : Radio) :
    (s.failing a c cancel).core q = ((s.failLeft a c).dropAttemptOrder a.radio a.number).core q := by
  unfold State.failing
  split
  · exact (State.enqueue_quiet _ _ _).core q
  · rfl

theorem State.failing_state (c : Cause) (cancel : Bool) (q : Radio) :
    ((s.failing a c cancel).radio q).state = (s.radio q).state := by
  have core := congrArg RadioContext.state (s.failing_core a c cancel q)
  refine core.trans ((State.dropAttemptOrder_state _ _ _ _).trans ?_)
  rw [State.failLeft_radio]

/-- What a failure leaves, the call state apart (R112). -/
theorem State.failed_quits (c : Cause) (cancel : Bool) : s.Quits (s.failing a c cancel) (s.failed a c cancel) a
    (·.left s.profile (.failed c) true) (s.attemptRecord a (.failed c) none) := by
  have tables := s.slotLeft_tables a.slot (.failed c) true
  have rest : { s.failing a c cancel with radios := s.radios, ports := s.ports }
      = { s.failLeft a c with radios := s.radios, ports := s.ports } := by
    have drop := congrArg (fun x : State => { x with radios := s.radios, ports := s.ports })
      (State.dropAttemptOrder_rest (s.failLeft a c) a.radio a.number)
    unfold State.failing
    split
    · exact (congrArg (fun x : State => { x with radios := s.radios, ports := s.ports })
        (State.enqueue_rest ((s.failLeft a c).dropAttemptOrder a.radio a.number) a.radio _)).trans drop
    · exact drop
  unfold State.failed
  refine State.quits_of (u := s.failing a c cancel) (s.failing_call a c cancel) rfl
    ⟨(congrArg State.prefs rest : _).trans tables.prefs, (congrArg State.supply rest : _).trans tables.supply,
      (congrArg State.profile rest : _).trans tables.profile⟩ ((congrArg State.journal rest : _).trans tables.journal)
    (s.failing_state a c cancel) fun j => ?_
  have table : (s.failing a c cancel).table = (s.slotLeft a.slot (.failed c) true).table := (congrArg State.table rest : _)
  rw [← State.slotLeft_entry]
  unfold State.entry
  rw [table]

/-- The leg has dropped, and the call has not followed yet (R116). -/
def State.dropped (c : Cause) : State :=
  ((s.slotLeft a.slot (.dropped c) true).release a.radio).closeAttempt a (.dropped c)

theorem State.dropped_quits (c : Cause) : s.Quits (s.slotLeft a.slot (.dropped c) true) (s.dropped a c) a
    (·.left s.profile (.dropped c) true) (s.attemptRecord a (.dropped c) none) := by
  have tables := s.slotLeft_tables a.slot (.dropped c) true
  exact State.quits_of (c := s.call) tables.call rfl tables.around.settings tables.journal (fun q => by rw [tables.radio])
    fun j => State.slotLeft_entry ..

/-- The state in which a CANCEL of an attempt given up waits for its radio (R99). -/
def State.cancelled (s : State) (a : Attempt) : State :=
  if s.hasCancelOrder a.radio a.number then s else s.enqueue a.radio (.cancel a.number .endingTimeout)

theorem Entry.left_noBlame (p : Profile) (e : Entry) : e.left p .noBlame false = e.unpinned p := by
  unfold Entry.left
  exact Option.map_id_apply

theorem State.cancelled_quiet : Quiet s (s.cancelled a) := by
  unfold State.cancelled
  exact .ite (fun _ => .refl s) fun _ => State.enqueue_quiet _ _ _

theorem State.cancelled_rest : { s.cancelled a with radios := s.radios, ports := s.ports } = s := by
  unfold State.cancelled
  split
  · rfl
  · exact State.enqueue_rest _ _ _

theorem State.cancelled_portsKept : s.portsKept (s.cancelled a) orderNotice := by
  unfold State.cancelled
  split
  · exact .refl _ _
  · exact State.enqueue_portsKept _ _ _

/-- A radio's orders once those of a state that holds the same CANCEL orders have been asked about. -/
theorem State.cancelled_mem {s t : State} {a : Attempt} {q : Radio} (state : (t.radio a.radio).state ≠ .off ∧ (t.radio a.radio).state ≠ .fault
    ↔ (s.radio a.radio).state ≠ .off ∧ (s.radio a.radio).state ≠ .fault)
    (same : ∀ q (o : Order), o.kind ≠ .survey → o.kind ≠ .power → (o ∈ (t.radio q).queue ↔ o ∈ (s.radio q).queue))
    {o : Order} (survey : o.kind ≠ .survey) (power : o.kind ≠ .power) :
    o ∈ ((t.cancelled a).radio q).queue ↔ o ∈ ((s.cancelled a).radio q).queue := by
  have has : t.hasCancelOrder a.radio a.number = s.hasCancelOrder a.radio a.number := by
    rw [Bool.eq_iff_iff, State.hasCancelOrder_iff, State.hasCancelOrder_iff]
    exact exists_congr fun c => same a.radio _ OrderKind.noConfusion OrderKind.noConfusion
  unfold State.cancelled
  rw [has]
  split
  · exact same q o survey power
  · rw [State.queue_enqueue, State.queue_enqueue]
    by_cases here : q = a.radio ∧ (s.radio a.radio).state ≠ .off ∧ (s.radio a.radio).state ≠ .fault
    · rw [if_pos here, if_pos ⟨here.1, state.2 here.2⟩, List.mem_append, List.mem_append, mem_dropKind, mem_dropKind,
        same a.radio o survey power]
    · rw [if_neg here, if_neg fun h => here ⟨h.1, state.1 h.2⟩]
      exact same q o survey power

/-- What giving an attempt up at the end of the ending timer leaves (R99). -/
theorem State.giveUpAttempt_quits : s.Quits (s.cancelled a) (s.giveUpAttempt a) a (·.left s.profile .noBlame false)
    (s.attemptRecord a .cleared (some .endingTimeout)) := by
  set u := ((s.recordAttempt a .cleared (some .endingTimeout)).removeAttempt a.number).unpinSlot a.slot with hu
  have tables : Tables ((s.recordAttempt a .cleared (some .endingTimeout)).removeAttempt a.number) u :=
    State.unpinSlot_tables _ _
  have radio (q : Radio) : u.radio q = s.radio q := tables.radio q
  have eq : s.giveUpAttempt a = (u.release a.radio).cancelled a := rfl
  have quiet := (u.release a.radio).cancelled_quiet a
  have rest := (u.release a.radio).cancelled_rest a
  have ports := (s.cancelled_portsKept a .station).2
  have posts : Posts s ((u.release a.radio).cancelled a) :=
    (s.recordAttempt_posts a .cleared (some .endingTimeout)).trans
      (Posts.trans (t := (s.recordAttempt a .cleared (some .endingTimeout)).removeAttempt a.number) (.of_ports rfl)
        ((State.unpinSlot_posts _ _).trans ((State.release_posts _ _).trans (.of_portsKept (State.cancelled_portsKept _ a)))))
  rw [eq]
  constructor
  case call =>
    rw [quiet.call, State.release_call, tables.call, (s.cancelled_quiet a).call]
    rfl
  case core =>
    intro q
    rw [quiet.core, State.release_core, (s.cancelled_quiet a).core]
    unfold State.core
    rw [radio]
  case mem =>
    intro q o survey power
    refine State.cancelled_mem ?_ (fun q o survey power => (State.release_mem u a.radio q survey power).trans (by rw [radio]))
      survey power
    rw [State.release_state, if_pos rfl, radio]
    cases (s.radio a.radio).state <;> simp [RadioState.released]
  case entry =>
    intro j
    have here : u.entry j = if j = a.slot then (s.entry j).bind (·.left s.profile .noBlame false) else s.entry j := by
      rw [hu, State.unpinSlot_entry]
      simp only [Entry.left_noBlame]
      rfl
    have same : ((u.release a.radio).cancelled a).entry j = (u.release a.radio).entry j := quiet.entry j
    rw [same, State.release_entry_eq, here]
    unfold State.comeBack
    rw [radio, tables.profile]
    rfl
  case journal =>
    intro room
    rw [quiet.journal, State.release_journal, tables.journal]
    exact s.recordAttempt_journal a .cleared (some .endingTimeout) room
  case settings => exact (State.giveUpAttempt_inner s a).settings
  case posts =>
    exact fun k ne now => posts k ne ((ports k fun no => no.1 rfl).symm.trans now)
  case posted =>
    intro busy
    refine Posts.of_portsKept (State.cancelled_portsKept _ a) .radio (by decide) (State.release_posted ?_)
    unfold State.Busy
    rw [radio]
    exact busy

end

end

end Sys2Proof.Machine
end

section
/-! PROOFS. The failure of an attempt and the call state that follows (R96, R112, R113, R127). -/

namespace Sys2Proof.Machine

/-! ### The call state after a failure (R96, R113) -/

theorem satSucc_le {n : Nat} (le : n ≤ 255) : satSucc 255 n = min 255 (n + 1) := by
  unfold satSucc
  split
  · next low => exact (min_eq_right low).symm
  · omega

/-- The counts rise as the statements say (R112). -/
theorem CallRecord.countFailure_blamed {c : CallRecord} (failures : c.failures ≤ 255) (r : Radio)
    (radios : c.radioFailures.get r ≤ 255) : c.countFailure r = c.blamed r := by
  unfold CallRecord.countFailure CallRecord.blamed
  rw [satSucc_le failures, satSucc_le radios]

theorem backoffTime_pos {base : Nat} (pos : 0 < base) (n : Nat) : 0 < backoffTime base n := by
  unfold backoffTime Config.maxBackoff
  have := Nat.mul_pos pos (Nat.pow_pos (n := min (n - 1) 4) (show 0 < 2 by decide))
  omega

theorem State.isPlacing_iff (s : State) : s.isPlacing = true ↔ s.call.state = .placing ∨ s.call.state = .recovering := by
  unfold State.isPlacing
  rw [Bool.or_eq_true, beq_iff_eq, beq_iff_eq]

/-- The call waits in BACKOFF (R96). -/
def State.backedOff (s : State) : State := (s.mapCall fun c => { c with backoff := some 0 }).setCall .backoff

section
variable {s t u : State}

theorem State.backedOff_call : s.backedOff.call = { s.call with state := .backoff, backoff := some 0 } :=
  State.setCall_other _ (by decide)

theorem State.backedOff_core (q : Radio) : s.backedOff.core q = s.core q := State.setCall_core _ _ q
theorem State.backedOff_entry (i : Nat) : s.backedOff.entry i = s.entry i := State.setCall_entry _ _ i
theorem State.backedOff_journal : s.backedOff.journal = s.journal := State.setCall_journal _ _
theorem State.backedOff_mem (q : Radio) {o : Order} (survey : o.kind ≠ .survey) (power : o.kind ≠ .power) :
    o ∈ (s.backedOff.radio q).queue ↔ o ∈ (s.radio q).queue := State.setCall_mem _ _ q survey power
theorem State.backedOff_posts : Posts s s.backedOff :=
  .trans (t := s.mapCall fun c => { c with backoff := some 0 }) (.of_ports rfl) (State.setCall_posts _ _)
theorem State.backedOff_posted (placing : s.call.state = .placing ∨ s.call.state = .recovering) :
    (s.backedOff.port .station).pending.call = true := by
  refine State.setCall_posted _ ?_
  show s.call.state ≠ .backoff
  rcases placing with h | h <;> rw [h] <;> decide

theorem State.backedOff_settings : s.settingsKept s.backedOff := (State.setCall_inner (s.mapCall _) _).settings
theorem State.setStagger_settings (g : Stagger) : s.settingsKept (s.setStagger g) := ⟨rfl, rfl, rfl⟩

/-- With another wanted attempt in flight the call stays, and the stagger counts anew or stops (R113, R127). -/
theorem State.afterFailure_lead (placing : t.call.state = .placing ∨ t.call.state = .recovering) {b : Attempt}
    (lead : t.lead = some b) :
    t.afterFailure = t.setStagger (if t.staggerInEffect && b.step.isEarly then .counting 0 else .stopped) := by
  unfold State.afterFailure
  rw [if_pos (t.isPlacing_iff.2 placing), lead]

/-- The last wanted attempt has failed, with a base above 0 (R96, R134). -/
theorem State.afterFailure_last (placing : t.call.state = .placing ∨ t.call.state = .recovering) (lead : t.lead = none)
    (given : (t.setStagger .stopped).giveUpSurplus = u) (base : 0 < u.profile.backoff) : t.afterFailure = u.backedOff := by
  unfold State.afterFailure
  rw [if_pos (t.isPlacing_iff.2 placing), lead]
  show ((t.setStagger .stopped).giveUpSurplus).startBackoff = _
  rw [given]
  unfold State.startBackoff
  exact if_pos (backoffTime_pos base _)

theorem State.lead_none (unwanted : ∀ a ∈ t.call.attempts, a.disposition ≠ none) : t.lead = none :=
  List.find?_eq_none.2 fun a mem wanted => unwanted a mem ((Attempt.isWanted_iff a).1 wanted)

end

/-! ### The target of a failed attempt (R13, R14, R36) -/

section
variable {p : Profile} {e : Entry} {o : OutcomeEvent}

/-- The loss of credit of an outcome is what the statements name. -/
theorem addCredit_loss {credit loss : Nat} {d : Int} (le : credit ≤ 15) (change : d = -loss) :
    addCredit credit d = credit - loss := by
  unfold addCredit
  rw [change, min_eq_right (max_le (by decide) (by omega))]
  omega

/-- A ranked entry that is young stays as it is but for its credit, its score, its pin and its exclusion. -/
theorem Entry.left_young {g : Heard} {loss : Nat} (pin : e.pin = true) (ranked : e.state = .ranked g)
    (fade : e.age < p.fade * 1000) (lost : e.age < p.lost * 1000) (credit : e.credit ≤ 15)
    (change : creditChange o = -loss) : ∀ x : Entry, x = { e with
      credit := e.credit - loss, pin := false
      excludedFor := if p.exclusion = 0 then none else some (p.exclusion * 1000) } →
    e.left p o true = some { x with score := if loss = 0 then e.score else scoreOf p.biases x } := by
  rintro x rfl
  have excluded : (if p.exclusion * 1000 = 0 then none else some (p.exclusion * 1000))
      = if p.exclusion = 0 then none else some (p.exclusion * 1000) := if_congr (by omega) rfl rfl
  have young (f : Entry) (state : f.state = .ranked g) (age : f.age = e.age) (pinF : f.pin = true) :
      f.unpinned p = some { f with pin := false } := by
    unfold Entry.unpinned
    rw [if_pos pinF]
    exact Entry.thresholds_young (g := g) state (.inr (age ▸ fade)) (.inr (age ▸ lost))
  unfold Entry.left
  by_cases none : loss = 0
  · subst none
    rw [show e.outcome p.biases o = e from if_pos change, young e ranked rfl pin]
    show some (Entry.excluded p _) = _
    unfold Entry.excluded
    rw [excluded]
    rfl
  · have changed : e.outcome p.biases o = { e with
        credit := e.credit - loss, score := scoreOf p.biases { e with credit := e.credit - loss } } := by
      unfold Entry.outcome
      rw [if_neg (by omega), addCredit_loss credit change]
      exact if_pos ((Entry.isRanked_iff _).2 ⟨g, ranked⟩)
    rw [changed, young { e with
      credit := e.credit - loss, score := scoreOf p.biases { e with credit := e.credit - loss } } ranked rfl pin, if_neg none]
    show some (Entry.excluded p _) = _
    unfold Entry.excluded
    rw [excluded]
    rfl

end

/-! ### A lone attempt fails (R96, R112, R113) -/

section
variable {s : State} {a : Attempt} {c : Cause} {cancel : Bool}

theorem filter_alone (a : Attempt) : ([a].filter fun b => b.number != a.number) = [] := by simp

theorem filter_first {a b : Attempt} (ne : b.number ≠ a.number) : ([a, b].filter fun x => x.number != a.number) = [b] := by
  simp [ne]

theorem filter_second {a b : Attempt} (ne : b.number ≠ a.number) : ([b, a].filter fun x => x.number != a.number) = [b] := by
  simp [ne]

/-- Of two attempts in flight the other is left. -/
theorem filter_both {a b : Attempt} {l : List Attempt} (both : bothInFlight a b l) (ne : b.number ≠ a.number) :
    (l.filter fun x => x.number != a.number) = [b] := by
  rcases both with rfl | rfl
  · exact filter_first ne
  · exact filter_second ne

/-- The call waits in BACKOFF once its only attempt has failed, with a base above 0. -/
theorem State.failAttempt_alone (alone : s.call.attempts = [a])
    (placing : s.call.state = .placing ∨ s.call.state = .recovering) (base : 0 < s.profile.backoff) :
    s.failAttempt a c cancel = ((s.failed a c cancel).setStagger .stopped).backedOff := by
  have quits := s.failed_quits a c cancel
  have none : (s.failed a c cancel).call.attempts = [] := by
    rw [quits.call, State.failing_call]
    show List.filter _ s.call.attempts = []
    rw [alone, filter_alone]
  rw [State.failAttempt_eq]
  refine State.afterFailure_last ?_ (State.lead_none fun b mem => absurd (none ▸ mem) List.not_mem_nil) (State.giveUpSurplus_none none) ?_
  · rw [quits.call, State.failing_call]
    exact placing
  · show 0 < (s.failed a c cancel).profile.backoff
    rw [quits.settings.2.2]
    exact base

/-- The call record after the failure of the only attempt. -/
theorem State.failAttempt_alone_call (alone : s.call.attempts = [a]) (failures : s.call.failures ≤ 255)
    (radios : s.call.radioFailures.get a.radio ≤ 255) :
    ((s.failed a c cancel).setStagger .stopped).backedOff.call = { s.call.blamed a.radio with
      state := .backoff, attempts := [], backoff := some 0, stagger := .stopped } := by
  rw [State.backedOff_call]
  show ({ (s.failed a c cancel).call with stagger := _, state := _, backoff := _ } : CallRecord) = _
  rw [(s.failed_quits a c cancel).call, State.failing_call, CallRecord.countFailure_blamed failures a.radio radios]
  show ({ s.call.blamed a.radio with attempts := List.filter _ s.call.attempts, stagger := _, state := _, backoff := _ } : CallRecord) = _
  rw [alone, filter_alone]
  rfl

end

/-! ### The radio of an attempt that ends (R69) -/

section
variable {s u t : State} {a : Attempt} {left : Entry → Option Entry} {x : JournalRecord}

theorem State.Released.of_core {r : Radio} (h : t.core r = { s.core r with state := .ready, start := none, take := (t.core r).take }) :
    s.Released t r := by
  have := State.radio_of_core (c := { s.radio r with state := .ready, start := none, take := (t.radio r).take }) h
  exact this

theorem State.Released.congr {r : Radio} (h : s.Released u r) (core : t.core r = u.core r) : s.Released t r := by
  have own : u.core r = { s.core r with state := .ready, start := none, take := (u.core r).take } :=
    (congrArg (fun c : RadioContext => { c with queue := [] }) h : _)
  exact .of_core (core.trans (own.trans (by rw [core])))

namespace State.Quits

/-- A busy radio is released (R69). -/
theorem released (h : s.Quits u t a left x) (busy : s.Busy a.radio)
    (core : { u.core a.radio with take := none } = { s.core a.radio with take := none }) : s.Released t a.radio := by
  have state : (u.core a.radio).state = (s.radio a.radio).state := (congrArg RadioContext.state core : _)
  refine .of_core ?_
  rw [h.core, if_pos rfl, RadioContext.released_busy (by rw [state]; exact busy)]
  have same : ∀ c d : RadioContext, ({ c with take := none } : RadioContext) = { d with take := none } →
      c = { d with take := c.take } := by
    rintro ⟨⟩ ⟨⟩ h
    cases h
    rfl
  exact (congrArg (fun c : RadioContext => { c with state := .ready, start := none }) (same _ _ core) : _)

/-- The other radio keeps all but its queue. -/
theorem other (h : s.Quits u t a left x) {q : Radio} (ne : q ≠ a.radio) (core : u.core q = s.core q) : s.radioKept t q := by
  rw [State.radioKept_iff, h.core, if_neg ne, core]

end State.Quits

end

section
variable (s : State) (a : Attempt) (c : Cause) (cancel : Bool)

/-- The orders of a failure change queues and the take deadline of the attempt's radio alone. -/
theorem State.failing_core_take : { (s.failing a c cancel).core a.radio with take := none } = { s.core a.radio with take := none } := by
  have same : (s.failLeft a c).core a.radio = s.core a.radio := by unfold State.core; rw [State.failLeft_radio]
  rw [State.failing_core, State.dropAttemptOrder_core, same]
  split <;> rfl

theorem State.failing_core_other {q : Radio} (ne : q ≠ a.radio) : (s.failing a c cancel).core q = s.core q := by
  have same : (s.failLeft a c).core q = s.core q := by unfold State.core; rw [State.failLeft_radio]
  rw [State.failing_core, State.dropAttemptOrder_core, if_neg fun h => ne h.1, same]

/-- The CANCEL RECOVERY of a failure that is sent one waits for its radio (R109, R110). -/
theorem State.failing_cancel (live : (s.radio a.radio).state ≠ .off ∧ (s.radio a.radio).state ≠ .fault) :
    .cancel a.number .recovery ∈ ((s.failing a c true).radio a.radio).queue := by
  have state : (((s.failLeft a c).dropAttemptOrder a.radio a.number).radio a.radio).state = (s.radio a.radio).state := by
    rw [State.dropAttemptOrder_state, State.failLeft_radio]
  unfold State.failing
  rw [if_pos rfl, State.queue_enqueue, if_pos ⟨rfl, by rw [state]; exact live⟩]
  exact List.mem_append_right _ (List.mem_singleton_self _)

end

/-! ### The deadlines, the reports and the walks (O55, O58) -/

section
variable {h : State} {a : Attempt}

/-- A cause that a radio may report (R106). -/
theorem reportOf_failed_of {cause : Nat} {c : Cause} (given : (cause = 0 ∧ c = .noService) ∨ (cause = 1 ∧ c = .rejected)
    ∨ (cause = 2 ∧ c = .networkBusy) ∨ (cause = 3 ∧ c = .radioFault)) : reportOf 3 cause = some (.failed c) := by
  rcases given with ⟨rfl, rfl⟩ | ⟨rfl, rfl⟩ | ⟨rfl, rfl⟩ | ⟨rfl, rfl⟩ <;> rfl

theorem reportOf_dropped_of {cause : Nat} {c : Cause} (given : (cause = 0 ∧ c = .noService) ∨ (cause = 1 ∧ c = .rejected)
    ∨ (cause = 2 ∧ c = .networkBusy) ∨ (cause = 3 ∧ c = .radioFault)) : reportOf 4 cause = some (.dropped c) := by
  rcases given with ⟨rfl, rfl⟩ | ⟨rfl, rfl⟩ | ⟨rfl, rfl⟩ | ⟨rfl, rfl⟩ <;> rfl

/-- A FAILED report fails a wanted attempt that its radio has taken (R107, R111). -/
theorem progressAttempt_failed (wanted : a.disposition = none)
    (early : a.step = .taken ∨ a.step = .accepted ∨ a.step = .alerting) (c : Cause) :
    h.progressAttempt a (.failed c) = (h.failAttempt a c false, only .ok) := by
  have moves : (Report.failed c).moves a.step = true := by rcases early with k | k | k <;> rw [k] <;> rfl
  rw [progressAttempt_wanted wanted]
  unfold State.progressWanted
  rw [if_pos moves]
  rfl

end

/-- The number of the ATTEMPT orders that a queue holds. -/
theorem findSome_number {f : Order → Option Nat} {l : List Order} (n : Nat) (some : ∃ o ∈ l, o.kind = .attempt)
    (own : ∀ o ∈ l, o.kind = .attempt → ∃ b c d e g, o = .attempt n b c d e g)
    (attempt : ∀ n b c d e g, f (.attempt n b c d e g) = .some n) (other : ∀ o, o.kind ≠ .attempt → f o = none) :
    l.findSome? f = .some n := by
  cases found : l.findSome? f with
  | none =>
    obtain ⟨o, mem, kind⟩ := some
    obtain ⟨b, c, d, e, g, rfl⟩ := own o mem kind
    have no := List.findSome?_eq_none_iff.1 found _ mem
    rw [attempt] at no
    cases no
  | some m =>
    obtain ⟨o, mem, value⟩ := List.exists_of_findSome?_eq_some found
    by_cases kind : o.kind = .attempt
    · obtain ⟨b, c, d, e, g, rfl⟩ := own o mem kind
      exact value.symm.trans (attempt ..)
    · rw [other o kind] at value
      cases value

/-- The state in which an attempt fails by its take deadline: its order and the deadline are gone (R68). -/
def State.untaken (s : State) (r : Radio) : State := (s.dropOrders r .attempt).mapRadio r fun c => { c with take := none }

section
variable (s : State) (r q : Radio)

theorem State.untaken_radio : (s.untaken r).radio q
    = if q = r then { s.radio q with take := none, queue := dropKind .attempt (s.radio q).queue } else s.radio q := by
  unfold State.untaken
  rw [State.radio_mapRadio]
  unfold State.dropOrders
  rw [State.radio_setQueue]
  split
  · next same => rw [same]
  · rfl

theorem State.untaken_rest : { s.untaken r with radios := s.radios, ports := s.ports } = s :=
  (congrArg (fun x : State => { x with radios := s.radios, ports := s.ports }) (s.setQueue_rest r _) : _)

end

/-- The take deadline of an attempt whose order waits makes it fail (R68). -/
theorem State.takeTimeout_of {s : State} {r : Radio} {a : Attempt} (alone : s.call.attempts = [a])
    (some : ∃ o ∈ (s.radio r).queue, o.kind = .attempt)
    (own : ∀ o ∈ (s.radio r).queue, o.kind = .attempt → ∃ b c d e f, o = .attempt a.number b c d e f) :
    s.takeTimeout r = settle (s.untaken r) ((s.untaken r).failAttempt a .takeTimeout false) := by
  have found : (s.untaken r).attempt a.number = .some a := by
    unfold State.attempt
    rw [show (s.untaken r).call = s.call from (congrArg State.call (s.untaken_rest r) : _), alone, List.find?_cons_of_pos (by simp)]
  unfold State.takeTimeout
  dsimp only
  rw [findSome_number a.number some own]
  · show (match (s.untaken r).attempt a.number with | .some a => _ | none => _) = _
    rw [found]
    rfl
  · exact fun _ _ _ _ _ _ => rfl
  · intro o kind
    cases o <;> first | rfl | exact absurd rfl kind

/-- Without an ATTEMPT order, a failure that sends no CANCEL changes no queue. -/
theorem State.failing_absent {s : State} {a : Attempt} {c : Cause} (no : ¬ s.AttemptOrder a.radio a.number) (q : Radio) :
    (s.failing a c false).radio q = s.radio q := by
  unfold State.failing
  rw [if_neg (by decide), State.dropAttemptOrder_absent, State.failLeft_radio]
  rwa [State.AttemptOrder.of_radio (s.failLeft_radio a c _)]

/-- The settled outcome of the failure of the only attempt in flight. -/
theorem settle_failAttempt_alone {h s : State} {a : Attempt} {c : Cause} {cancel : Bool} (alone : s.call.attempts = [a])
    (placing : s.call.state = .placing ∨ s.call.state = .recovering) (base : 0 < s.profile.backoff) :
    settle h (s.failAttempt a c cancel) = ((s.failed a c cancel).setStagger .stopped).backedOff := by
  rw [State.failAttempt_alone alone placing base]
  refine settle_deaf ?_ ?_ ?_ <;> rw [State.backedOff_call] <;> exact nofun

/-- An attempt that is alone in flight, wanted and not connected, with a base above 0 and room in the journal. -/
def State.Failing (h : State) (a : Attempt) : Prop :=
  h.call.attempts = [a] ∧ a.disposition = none ∧ a.connected = none ∧ a.number ≠ 0
    ∧ (h.call.state = .placing ∨ h.call.state = .recovering) ∧ (h.radio a.radio).state = .attempting
    ∧ 0 < h.profile.backoff ∧ h.journal.records.length < 32 ∧ h.call.failures ≤ 255
    ∧ (∀ r, h.call.radioFailures.get r ≤ 255) ∧ h.call.part = none

/-- What its failure leaves of the call, the journal, the other radio and the notices (R96, R112). -/
def State.FailedTo (h t : State) (a : Attempt) (c : Cause) : Prop :=
  t.call = { h.call with
      state := .backoff, attempts := [], failures := min 255 (h.call.failures + 1)
      radioFailures := h.call.radioFailures.set a.radio (min 255 (h.call.radioFailures.get a.radio + 1))
      lastFailed := some a.radio, backoff := some 0, stagger := .stopped }
    ∧ (∃ d, h.lasted a.ordered d ∧ t.journal = { h.journal with records := h.journal.records ++
        [⟨.attempt, h.call.number, some a.number, some a.radio, some a.network, some a.generation, some a.cell,
          some (.failed c), none, d, h.journal.clock.sec, 0⟩] })
    ∧ h.radioKept t (otherRadio a.radio)
    ∧ (t.port .station).pending.call = true ∧ (t.port .station).pending.radio = true ∧ h.settingsKept t

/-- What its failure leaves of its radio and of the entries, where the radio is released (R69, R112). -/
def State.FreedTo (h t : State) (a : Attempt) (loss : Nat) : Prop :=
  t.radio a.radio = { h.radio a.radio with
      state := .ready, start := none, take := (t.radio a.radio).take, queue := (t.radio a.radio).queue }
    ∧ (∀ j e, j ≠ a.slot → h.entry j = some e → e.radio ≠ a.radio ∨ (∀ g, e.state ≠ .held g) → t.entry j = some e)
    ∧ (∀ e g, h.entry a.slot = some e → e.pin = true → e.state = .ranked g → e.age < h.profile.fade * 1000 →
        e.age < h.profile.lost * 1000 → e.credit ≤ 15 →
        ∀ x : Entry, x = { e with
          credit := e.credit - loss, pin := false
          excludedFor := if h.profile.exclusion = 0 then none else some (h.profile.exclusion * 1000) } →
        t.entry a.slot = some { x with score := if loss = 0 then e.score else scoreOf h.profile.biases x })

/-- The state after the failure of an attempt alone in flight. -/
def State.failedAlone (s : State) (a : Attempt) (c : Cause) (cancel : Bool) : State :=
  ((s.failed a c cancel).setStagger .stopped).backedOff

section
variable {h : State} {a : Attempt}

theorem State.Failing.failedTo (hyp : h.Failing a) (c : Cause) (cancel : Bool) :
    h.FailedTo (h.failedAlone a c cancel) a c := by
  obtain ⟨alone, -, unconnected, -, placing, busy, base, room, failures, radios, -⟩ := hyp
  have quits := h.failed_quits a c cancel
  refine ⟨State.failAttempt_alone_call alone failures (radios _), ⟨_, h.since_lasted a.ordered, ?_⟩, ?_, ?_, ?_, ?_⟩
  · refine State.backedOff_journal.trans ((quits.journal room).trans ?_)
    unfold State.attemptRecord
    rw [unconnected]
    rfl
  · refine State.radioKept_iff.2 ((State.backedOff_core _).trans ?_)
    exact State.radioKept_iff.1 (quits.other (otherRadio_ne _) (h.failing_core_other a c cancel (otherRadio_ne _)))
  · refine State.backedOff_posted ?_
    show (h.failed a c cancel).call.state = _ ∨ (h.failed a c cancel).call.state = _
    rw [quits.call, State.failing_call]
    exact placing
  · exact State.backedOff_posts .radio (by decide) (quits.posted (.inl busy))
  · exact quits.settings.trans ((State.setStagger_settings _).trans State.backedOff_settings)

theorem State.Failing.freedTo {c : Cause} {cancel : Bool} {loss : Nat} (hyp : h.Failing a)
    (change : creditChange (.failed c) = -loss) : h.FreedTo (h.failedAlone a c cancel) a loss := by
  obtain ⟨-, -, -, -, -, busy, -⟩ := hyp
  have quits := h.failed_quits a c cancel
  have entry (j : Nat) : (h.failedAlone a c cancel).entry j = (h.failed a c cancel).entry j := State.backedOff_entry j
  refine ⟨?_, fun j e ne at_ other => (entry j).trans (quits.kept ne at_ other),
    fun e g at_ pin ranked fade lost credit x hx => ?_⟩
  · exact State.Released.congr (quits.released (.inl busy) (h.failing_core_take a c cancel)) (State.backedOff_core _)
  · rw [entry, quits.entry, if_pos rfl, at_]
    show (e.left h.profile (.failed c) true).bind _ = _
    rw [Entry.left_young pin ranked fade lost credit change x hx]
    refine State.comeBack_kept (.inr fun f => ?_)
    subst hx
    show e.state ≠ _
    rw [ranked]
    exact nofun

/-- The CANCEL RECOVERY of a failure by a deadline waits for the radio (R109, R110). -/
theorem State.Failing.cancel (hyp : h.Failing a) (c : Cause) :
    .cancel a.number .recovery ∈ ((h.failedAlone a c true).radio a.radio).queue := by
  obtain ⟨-, -, -, -, -, busy, -⟩ := hyp
  refine (State.backedOff_mem _ OrderKind.noConfusion OrderKind.noConfusion).2 ?_
  refine ((h.failed_quits a c true).mem a.radio _ OrderKind.noConfusion OrderKind.noConfusion).2 ?_
  exact h.failing_cancel a c (by rw [busy]; decide)

/-- A deadline that does not run does nothing, and one that runs makes its attempt fail (R109, R110). -/
theorem State.deadlineExpired_still {n : Nat} {d : Attempt → Option Nat} (c : Cause)
    (still : ∀ a ∈ h.call.attempts, a.number = n → d a = none) : h.deadlineExpired n d c = h := by
  unfold State.deadlineExpired
  split
  · next a found =>
    have own := List.find?_some found
    rw [if_neg]
    rw [still a (List.mem_of_find?_eq_some found) (beq_iff_eq.1 own)]
    decide
  · rfl

theorem State.Failing.deadline (hyp : h.Failing a) {d : Attempt → Option Nat} (c : Cause) (runs : d a ≠ none) :
    h.deadlineExpired a.number d c = h.failedAlone a c true := by
  obtain ⟨alone, -, -, -, placing, -, base, -⟩ := hyp
  have found : h.attempt a.number = some a := by
    unfold State.attempt
    rw [alone, List.find?_cons_of_pos (by simp)]
  unfold State.deadlineExpired
  rw [found]
  exact (if_pos (Option.isSome_iff_ne_none.2 runs)).trans (settle_failAttempt_alone alone placing base)

/-- An attempt whose order waits fails by its take deadline (R68). -/
theorem State.Failing.untaken (hyp : h.Failing a) : (h.untaken a.radio).Failing a := by
  have rest := h.untaken_rest a.radio
  unfold State.Failing at *
  rw [show (h.untaken a.radio).call = h.call from (congrArg State.call rest : _),
    show (h.untaken a.radio).journal = h.journal from (congrArg State.journal rest : _),
    show (h.untaken a.radio).profile = h.profile from (congrArg State.profile rest : _), State.untaken_radio, if_pos rfl]
  exact hyp

end

section
variable {s t : State} {a : Attempt}

theorem State.untaken_call (s : State) (r : Radio) : (s.untaken r).call = s.call := (congrArg State.call (s.untaken_rest r) : _)
theorem State.untaken_journal (s : State) (r : Radio) : (s.untaken r).journal = s.journal :=
  (congrArg State.journal (s.untaken_rest r) : _)
theorem State.untaken_profile (s : State) (r : Radio) : (s.untaken r).profile = s.profile :=
  (congrArg State.profile (s.untaken_rest r) : _)
theorem State.untaken_entry (s : State) (r : Radio) (i : Nat) : (s.untaken r).entry i = s.entry i := by
  unfold State.entry
  rw [show (s.untaken r).table = s.table from (congrArg State.table (s.untaken_rest r) : _)]

theorem State.FailedTo.of_untaken {c : Cause} (h : (s.untaken a.radio).FailedTo t a c) : s.FailedTo t a c := by
  have rest := s.untaken_rest a.radio
  unfold State.FailedTo State.lasted State.settingsKept State.radioKept at *
  rw [State.untaken_call, State.untaken_journal, State.untaken_profile, State.untaken_radio, if_neg (otherRadio_ne _),
    show (s.untaken a.radio).prefs = s.prefs from (congrArg State.prefs rest : _),
    show (s.untaken a.radio).supply = s.supply from (congrArg State.supply rest : _)] at h
  exact h

theorem State.FreedTo.of_untaken {loss : Nat} (h : (s.untaken a.radio).FreedTo t a loss) : s.FreedTo t a loss := by
  unfold State.FreedTo at *
  simp only [State.untaken_profile, State.untaken_radio, State.untaken_entry, if_pos] at h
  exact h

/-- No ATTEMPT order waits once one has failed by its take deadline, and the deadline is gone (R68). -/
theorem State.untaken_failed (s : State) (a : Attempt) (c : Cause) :
    (((s.untaken a.radio).failedAlone a c false).radio a.radio).take = none
    ∧ ∀ o ∈ (((s.untaken a.radio).failedAlone a c false).radio a.radio).queue, o.kind ≠ .attempt := by
  have quits := (s.untaken a.radio).failed_quits a c false
  have own : ((s.untaken a.radio).radio a.radio).queue = dropKind .attempt (s.radio a.radio).queue
      ∧ ((s.untaken a.radio).radio a.radio).take = none := by
    rw [State.untaken_radio, if_pos rfl]
    exact ⟨rfl, rfl⟩
  have radio := State.failing_absent (s := s.untaken a.radio) (a := a) (c := c) (by
    rintro ⟨_, _, _, _, _, mem⟩
    rw [own.1] at mem
    exact (mem_dropKind.1 mem).2 rfl) a.radio
  constructor
  · have core := State.backedOff_core (s := ((s.untaken a.radio).failed a c false).setStagger .stopped) a.radio
    refine (congrArg RadioContext.take core : _).trans ((congrArg RadioContext.take (quits.core a.radio) : _).trans ?_)
    rw [if_pos rfl]
    have still (d : RadioContext) : d.released.take = d.take := by
      unfold RadioContext.released RadioContext.enter
      split <;> rfl
    rw [still]
    show (((s.untaken a.radio).failing a c false).radio a.radio).take = none
    rw [radio, own.2]
  · intro o mem kind
    have survey : o.kind ≠ .survey := by rw [kind]; decide
    have power : o.kind ≠ .power := by rw [kind]; decide
    have mem := (quits.mem _ o survey power).1 ((State.backedOff_mem
      (s := ((s.untaken a.radio).failed a c false).setStagger .stopped) _ survey power).1 mem)
    rw [radio, own.1] at mem
    exact (mem_dropKind.1 mem).2 kind

end

/-! ### The walks, and a failure beside another attempt (O58) -/

section
variable {h : State} {a b : Attempt} {c : Cause}

/-- One of two wanted attempts fails (R113, R127). -/
theorem State.failAttempt_beside (both : bothInFlight a b h.call.attempts) (ne : b.number ≠ a.number)
    (wanted : b.disposition = none) (placing : h.call.state = .placing ∨ h.call.state = .recovering) {cancel : Bool} :
    h.failAttempt a c cancel = (h.failed a c cancel).setStagger
      (if h.staggerInEffect && b.step.isEarly then .counting 0 else .stopped) := by
  have quits := h.failed_quits a c cancel
  have left : (h.failed a c cancel).call.attempts = [b] := by
    rw [quits.call, State.failing_call]
    exact filter_both both ne
  rw [State.failAttempt_eq, State.afterFailure_lead (b := b) ?_ (State.lead_eq left wanted)]
  · unfold State.staggerInEffect
    rw [quits.settings.2.1, quits.settings.2.2]
  · rw [quits.call, State.failing_call]
    exact placing

end

/-! ### An entry into READY and its walk (log entries 13 and 14) -/

section
variable {s u v t : State} {r : Radio}

theorem State.removeSurvey_urgent (s : State) (r : Radio) : (s.removeSurvey r).survey.urgent = s.survey.urgent := by
  unfold State.removeSurvey
  split
  · exact (MarksKept.surveyTest _).urgent.trans (SurveyKept.dropSurvey (r := r) s r).urgent
  · rfl

theorem State.tellScheduler_urgent (s : State) (r : Radio) : (s.tellScheduler r).survey.urgent = s.survey.urgent := by
  unfold State.tellScheduler
  cases (s.radio r).state
  case off | starting | fault => exact (MarksKept.surveyTest _).urgent.trans (MarksKept.setSurvey s r .due).urgent
  case ready => exact (MarksKept.surveyTest _).urgent.trans (s.urgentTest_urgent r)
  case surveying => rfl
  case attempting | inCall | snooze | silent => exact s.removeSurvey_urgent r

/-- What the event has done stands through what the other blocks hear of an entry into READY. -/
theorem State.Walks.readyNeighbours (h : u.Walks t r) (q : Radio) : u.Walks (t.readyNeighbours q) r := by
  have told := h.tends (.schedules (State.tellScheduler_schedules (e := fun _ => True) t q (.inl trivial)))
    (t.tellScheduler_urgent q)
  have posted : u.Walks ((t.tellScheduler q).post .radio) r := told.of_rest (by cases t.tellScheduler q; rfl)
  exact posted.tends (State.snoozeTest_tends (e := NoneEnds) _ false) (MarksKept.snoozeTest _ false).urgent

/-- What is placed on a state speaks of nothing that the scheduler or a port holds. -/
theorem State.Placed.congr {i n : Nat} {e : Entry} (h : v.Placed t i e n) (radios : v.radios = u.radios)
    (table : v.table = u.table) (rest : v.journal = u.journal ∧ v.prefs = u.prefs ∧ v.supply = u.supply
      ∧ v.profile = u.profile) : u.Placed t i e n := by
  obtain ⟨journal, prefs, supply, profile⟩ := rest
  have radio (q : Radio) : v.radio q = u.radio q := by unfold State.radio; rw [radios]
  have entry (j : Nat) : v.entry j = u.entry j := by unfold State.entry; rw [table]
  constructor
  case radio => rw [← radio]; exact h.radio
  case order => exact h.order
  case removed => exact h.removed
  case survey => rw [← radio]; exact h.survey
  case other => rw [← radio]; exact h.other
  case pinned => exact h.pinned
  case entries => exact fun j ne => (h.entries j ne).trans (entry j)
  case table => rw [← table]; exact h.table
  case journal => rw [← journal]; exact h.journal
  case rest => rw [← prefs, ← supply, ← profile]; exact h.rest

/-- What a walk has done speaks of nothing that the scheduler or a port holds. -/
theorem State.Walks.congr (h : v.Walks t r) (radios : v.radios = u.radios) (table : v.table = u.table)
    (call : v.call = u.call) (rest : v.journal = u.journal ∧ v.prefs = u.prefs ∧ v.supply = u.supply
      ∧ v.profile = u.profile) : u.Walks t r := by
  have candidate (i : Nat) (e : Entry) : v.Candidate i e ↔ u.Candidate i e := by
    unfold State.Candidate State.entry State.radio
    rw [radios, table, call]
  have candidates : v.Candidate = u.Candidate := funext fun i => funext fun e => propext (candidate i e)
  have ranked : v.ranked = u.ranked := by unfold State.ranked; rw [table]
  have first (p : Nat → Entry → Prop) (i : Nat) (e : Entry) : v.FirstOf p i e ↔ u.FirstOf p i e := by
    unfold State.FirstOf
    rw [ranked]
  have chooses (i : Nat) (e : Entry) : v.Chooses i e ↔ u.Chooses i e := by
    unfold State.Chooses State.TurnsFrom
    rw [candidates, call]
    simp only [first]
  have choosesOn (q : Radio) (i : Nat) (e : Entry) : v.ChoosesOn q i e ↔ u.ChoosesOn q i e := by
    unfold State.ChoosesOn
    rw [candidates, first]
  have ordered (i n : Nat) (e : Entry) : v.orderedAttempt i e n = u.orderedAttempt i e n := by
    unfold State.orderedAttempt
    rw [rest.1]
  have stagger : v.staggerAfter = u.staggerAfter := by
    unfold State.staggerAfter
    rw [call, rest.2.2.1, rest.2.2.2]
  unfold State.Walks at *
  simp only [candidate, chooses, choosesOn, ordered, stagger, call, table] at h
  refine ⟨fun seeking none part => ⟨(h.1 seeking none part).1, fun i e choice => ?_⟩,
    fun a placing opened one wanted part number => ⟨(h.2 a placing opened one wanted part number).1,
      fun i e early other choice => ?_⟩⟩
  · obtain ⟨placed, more⟩ := (h.1 seeking none part).2 i e choice
    exact ⟨placed.congr radios table rest, more⟩
  · obtain ⟨placed, more⟩ := (h.2 a placing opened one wanted part number).2 i e early other choice
    exact ⟨placed.congr radios table rest, more⟩

/-- The table at an entry into READY rests on the table, the radios and the profile alone. -/
theorem State.readied_table (radios : v.radios = u.radios) (table : v.table = u.table) (profile : v.profile = u.profile) :
    (v.readied r).table = (u.readied r).table := by
  have set : (v.setRadioState r .ready).table = (u.setRadioState r .ready).table := by
    have slots := (v.setRadioState_slots r .ready).trans ((congrArg ReachTable.slots table).trans
      (u.setRadioState_slots r .ready).symm)
    have relax := (v.setRadioState_relax r .ready).trans ((congrArg ReachTable.relax table).trans
      (u.setRadioState_relax r .ready).symm)
    have hold : (v.setRadioState r .ready).table.silentHold = (u.setRadioState r .ready).table.silentHold := by
      rw [State.setRadioState_hold, State.setRadioState_hold, table]
      unfold State.radio
      rw [radios]
    revert slots relax hold
    generalize (v.setRadioState r .ready).table = x
    generalize (u.setRadioState r .ready).table = y
    cases x
    cases y
    rintro rfl rfl rfl
    rfl
  unfold State.readied
  rw [State.returnEntries_eq, State.returnEntries_eq, State.mapTable_table, State.mapTable_table, set,
    State.setRadioState_profile, State.setRadioState_profile, profile]

/-- A radio that comes to READY from STARTING, as the walks speak of it: DUE in the scheduler makes no difference to them. -/
theorem State.enterReady_walks (s : State) (r : Radio) : (s.readied r).Walks ((s.dueFromStart r).enterReady r) r := by
  have walks := (State.callEvent_walks ((s.dueFromStart r).readied r) r).readyNeighbours r
  have around (x : State) : Around (x.setRadioState r .ready) (x.readied r) := x.readied_around r
  refine walks.congr ?_ (State.readied_table rfl rfl rfl) ?_ ⟨?_, ?_, ?_, ?_⟩
  · have radio (q : Radio) : ((s.dueFromStart r).readied r).radio q = (s.readied r).radio q := by
      rw [State.readied_radio, State.readied_radio]
      rfl
    have a := radio .A
    have b := radio .B
    revert a b
    unfold State.radio PerRadio.get
    generalize ((s.dueFromStart r).readied r).radios = x
    generalize (s.readied r).radios = y
    cases x
    cases y
    rintro rfl rfl
    rfl
  · rw [State.readied_call, State.readied_call]
    rfl
  · rw [(around _).journal, (around _).journal, State.setRadioState_journal, State.setRadioState_journal]
    rfl
  · rw [(around _).prefs, (around _).prefs, State.setRadioState_prefs, State.setRadioState_prefs]
    rfl
  · rw [(around _).supply, (around _).supply, State.setRadioState_supply, State.setRadioState_supply]
    rfl
  · rw [(around _).profile, (around _).profile, State.setRadioState_profile, State.setRadioState_profile]
    rfl

end

/-- Settles O58: the walks are the candidate event's, and a failure beside another attempt is the end of one. -/
theorem staggerWalks : Obligations.StaggerWalks := by
  refine ⟨fun s i n e reset entry excluded => ?_, fun s r speaks => ?_, fun s r cause c a b speaks => ?_⟩
  · refine ⟨_, State.next_event reset ?_, State.callEvent_walks _ _⟩
    unfold State.exclusionExpired
    rw [entry]
    exact if_pos (by rw [excluded]; rfl)
  · intro h starting
    refine ⟨h.dueFromStart r |>.enterReady r, State.next_radio (f := fun r s => s.moduleRequest r 1 0) speaks ?_,
      h.enterReady_walks r⟩
    show State.moduleRequest h r 1 0 = _
    unfold State.moduleRequest State.moduleStatus
    dsimp only [flagOf]
    rw [starting]
    rfl
  · dsimp only
    generalize hh : s.heardOn r = h
    intro both ra rb ne nonzero wa wb early unconnected placing part busyA busyB noOrder room failures radios given
    subst ra
    have quits := h.failed_quits a c false
    have mem : a ∈ h.call.attempts := by rcases both with k | k <;> rw [k] <;> simp
    have nodup : (h.call.attempts.map (·.radio)).Nodup := by
      have other := otherRadio_ne a.radio
      rcases both with k | k <;> rw [k] <;> simp [rb, other, other.symm]
    have progress := progress_next speaks (reportOf_failed_of given) (number := a.number)
      ((progressReport_named (by rw [hh]; exact mem) (by rw [hh]; exact nodup) nonzero _).trans
        (progressAttempt_failed wa early c))
    have opened {x : Bool} : (if x then Stagger.counting 0 else .stopped) ≠ .opened := by cases x <;> decide
    rw [hh, State.failAttempt_beside both ne.symm wb placing, settle_unopened ?_ opened] at progress
    · have call : (h.failed a c false).call = { h.call.blamed a.radio with attempts := [b] } := by
        rw [quits.call, State.failing_call, CallRecord.countFailure_blamed failures _ (radios _)]
        exact congrArg (fun l => { h.call.blamed a.radio with attempts := l }) (filter_both both ne.symm)
      refine ⟨_, _, progress, ?_, quits.journal room, ?_, ?_, quits.settings, ?_,
        if h.staggerInEffect && b.step.isEarly then .counting 0 else .stopped, ?_, ?_, ?_⟩
      · have record := h.attemptRecord_is a (.failed c) none
        rwa [unconnected] at record
      · exact quits.released (.inl busyA) (h.failing_core_take a c false)
      · rw [rb]
        exact quits.other (otherRadio_ne _) (h.failing_core_other a c false (otherRadio_ne _))
      · exact quits.unpinned (Entry.left_pinner _ _ _)
      · show ({ (h.failed a c false).call with stagger := _ } : CallRecord) = _
        rw [call]
      · intro staggered normal early
        rw [(h.staggerInEffect_iff).2 ⟨staggered, normal⟩, (AttemptStep.isEarly_iff b).2 early]
        rfl
      · intro off
        refine if_neg fun on => ?_
        rw [Bool.and_eq_true, State.staggerInEffect_iff, AttemptStep.isEarly_iff] at on
        obtain ⟨⟨staggered, normal⟩, early⟩ := on
        rcases off with k | k | k
        · rw [staggered] at k
          cases k
        · exact k normal
        · unfold Attempt.Early at early
          rw [k] at early
          simp at early
    · show (h.failed a c false).call.state ≠ _
      rw [quits.call, State.failing_call]
      show h.call.state ≠ _
      rcases placing with k | k <;> rw [k] <;> decide

end Sys2Proof.Machine
end

section
/-! PROOFS. The refutation of the statement that the clearing of a cancelled attempt keeps the take deadline of its
radio: the quiet ending of an attempt removes an ATTEMPT order that is still queued, and stops the take deadline with it
(R67, R68), in states that no run reaches but the statement speaks of. -/

namespace Sys2Proof.Machine

/-- A cancelled attempt that its radio has taken. -/
def attemptUntaken : Attempt := ⟨1, .A, 0, 26201, 4, 77, .taken, ⟨0, 0⟩, none, some .cancel, none, none⟩

/-- The attempt in ENDING, with its ATTEMPT order still waiting at radio A and the take deadline running. -/
def cancelledUntaken : State :=
  (State.reset.mapRadio .A fun c =>
    { c with state := .attempting, silence := some 0, take := some 0, queue := [.attempt 1 0 26201 4 77 0] }).mapCall
    fun c => { c with state := .ending, attempts := [attemptUntaken], ending := some 0 }

/-- The state that CLEARED on it leaves. -/
def clearedUntaken : State := ((cancelledUntaken.heardOn .A).progressRequest .A 1 5 0).1.answered (.radio .A) (bare .ok)

theorem exec_cancelledUntaken : exec (.progress (.radio .A) 1 5 0) cancelledUntaken = .next clearedUntaken :=
  progress_next ⟨⟨rfl, rfl⟩, rfl, by decide⟩ rfl rfl

/-- CLEARED stops the take deadline with the removal of the order. -/
theorem clearedUntaken_take : (clearedUntaken.radio .A).take = none := by decide +kernel

theorem heardOn_cancelledUntaken_take : ((cancelledUntaken.heardOn .A).radio .A).take = some 0 := by decide +kernel

/-- Refutes O56: CLEARED on a cancelled attempt whose ATTEMPT order is still queued stops the take deadline of the
radio, which the statement says is kept. -/
theorem not_legDropsAndClears : ¬ Obligations.LegDropsAndClears := by
  intro h
  obtain ⟨-, clears⟩ := h cancelledUntaken .A 5 0 attemptUntaken ⟨⟨rfl, rfl⟩, rfl, by decide⟩ rfl (by decide) rfl rfl
    (by decide)
  obtain ⟨t, runs, radio, -⟩ := clears .cleared attemptUntaken.ordered rfl rfl
    (.inl ⟨by decide, rfl, rfl, rfl, rfl, .inl rfl⟩)
  have same : t.answered (.radio .A) (bare .ok) = clearedUntaken :=
    Host.Outcome.next.inj (runs.symm.trans exec_cancelledUntaken)
  have take : (t.radio .A).take = none := by
    rw [← clearedUntaken_take, ← same, State.answered_radio]
  rw [radio] at take
  exact absurd (heardOn_cancelledUntaken_take.symm.trans take) (by decide)

end Sys2Proof.Machine
end

section
/-! PROOFS. The end of a call, into IDLE or into CALLBACK (R98, R100, R139). -/

namespace Sys2Proof.Machine

/-! ### What a change of the call record alone leaves -/

/-- From `s` to `t` the radios keep all but their queues, CANCEL and ATTEMPT orders among them, and the table, the journal
and the settings stay. -/
structure Passes (s t : State) : Prop where
  core : ∀ q, t.core q = s.core q
  mem : ∀ q (o : Order), o.kind = .cancel ∨ o.kind = .attempt → (o ∈ (t.radio q).queue ↔ o ∈ (s.radio q).queue)
  table : t.table = s.table
  journal : t.journal = s.journal
  posts : Posts s t
  settings : s.settingsKept t

theorem unlike_survey {o : Order} (h : o.kind = .cancel ∨ o.kind = .attempt) : o.kind ≠ .survey ∧ o.kind ≠ .power := by
  rcases h with h | h <;> rw [h] <;> decide

namespace Passes

theorem refl (s : State) : Passes s s := ⟨fun _ => rfl, fun _ _ _ => .rfl, rfl, rfl, .refl s, rfl, rfl, rfl⟩

theorem trans {s t u : State} (h : Passes s t) (k : Passes t u) : Passes s u :=
  ⟨fun q => (k.core q).trans (h.core q), fun q o kind => (k.mem q o kind).trans (h.mem q o kind), k.table.trans h.table,
    k.journal.trans h.journal, h.posts.trans k.posts, h.settings.trans k.settings⟩

theorem of_tends {e : Radio → Prop} {s t : State} (h : Tends e s t) : Passes s t :=
  ⟨h.quiet.core, fun q _ kind => h.mem q (unlike_survey kind).1 (unlike_survey kind).2, h.quiet.table, h.quiet.journal,
    h.posts, h.quiet.around.settings⟩

theorem mapCall (s : State) (f : CallRecord → CallRecord) : Passes s (s.mapCall f) :=
  ⟨fun _ => rfl, fun _ _ _ => .rfl, rfl, rfl, .of_ports rfl, rfl, rfl, rfl⟩

theorem setCall (s : State) (st : CallState) : Passes s (s.setCall st) :=
  ⟨s.setCall_core st, fun q _ kind => s.setCall_mem st q (unlike_survey kind).1 (unlike_survey kind).2, s.setCall_table st,
    s.setCall_journal st, s.setCall_posts st, (State.setCall_inner s st).settings⟩

theorem setRoute (s : State) (v : Option Radio) : Passes s (s.setRoute v) :=
  ⟨s.setRoute_core v, fun q _ _ => by rw [State.setRoute_radio], (s.setRoute_same v).2.1, (s.setRoute_same v).2.2.2,
    s.setRoute_posts v, (State.setRoute_inner s v).settings⟩

theorem enqueue (s : State) (r : Radio) (a : CallbackAction) : Passes s (s.enqueue r (.callback a)) := by
  have quiet := s.enqueue_quiet r (.callback a)
  refine ⟨quiet.core, fun q o kind => ?_, quiet.table, quiet.journal, s.enqueue_posts r _, (State.enqueue_inner s r _).settings⟩
  have other : o.kind ≠ .callback := by rcases kind with h | h <;> rw [h] <;> decide
  rw [State.queue_enqueue]
  split
  · next same =>
    rw [List.mem_append, mem_dropKind, List.mem_singleton, ← same.1]
    exact ⟨fun h => h.elim And.left fun e => absurd (congrArg Order.kind e) other, fun h => .inl ⟨h, other⟩⟩
  · rfl

theorem radioKept {s t : State} (h : Passes s t) (r : Radio) : s.radioKept t r := State.radioKept_iff.2 (h.core r)

theorem entry {s t : State} (h : Passes s t) (i : Nat) : t.entry i = s.entry i := by
  unfold State.entry
  rw [h.table]

end Passes

/-! ### The record and the exclusions at the end of a call (R100) -/

/-- The CALL_END record that is written now. -/
def State.endRecord (s : State) (reason : EndReason) : JournalRecord :=
  ⟨.callEnd, s.call.number, none, none, none, none, none, none, some reason, (s.call.startTime.map s.since).getD 0,
    s.journal.clock.sec, 0⟩

/-- The call has ended but for the choice between IDLE and CALLBACK (R100, steps 1 to 3). -/
def State.concluded (s : State) (reason : EndReason) : State :=
  ((s.recordCallEnd reason).clearExclusions).mapCall fun c => { c with carrying := none, ending := none }

/-- The ending leads to CALLBACK by the note of the last connection (R100, R139). -/
def State.Returns (s : State) (n : ConnectionNote) : Prop :=
  s.call.everConnected = true ∧ 0 < s.profile.window ∧ s.call.note = some n ∧ s.Open n.radio

section
variable (s : State) (reason : EndReason)

theorem State.endRecord_is : s.EndRecord reason (s.endRecord reason) := by
  refine ⟨(s.call.startTime.map s.since).getD 0, fun b start => ?_, rfl⟩
  rw [start, Option.map_some, Option.getD_some]
  exact s.since_lasted b

theorem State.concluded_tables : Tables (s.recordCallEnd reason) (s.recordCallEnd reason).clearExclusions :=
  State.clearExclusions_tables _

theorem State.concluded_call : (s.concluded reason).call = { s.call with carrying := none, ending := none } :=
  (congrArg (fun c : CallRecord => { c with carrying := none, ending := none }) (s.concluded_tables reason).call : _)

theorem State.concluded_radio (q : Radio) : (s.concluded reason).radio q = s.radio q := (s.concluded_tables reason).radio q

theorem State.concluded_entry (j : Nat) : (s.concluded reason).entry j = (s.entry j).map ({ · with excludedFor := none }) :=
  State.clearExclusions_entry _ j

theorem State.concluded_settings : s.settingsKept (s.concluded reason) :=
  (Inner.settings (.record s _)).trans (s.concluded_tables reason).around.settings

variable {s reason} {n : ConnectionNote}

theorem State.concluded_returns : (s.concluded reason).Returns n ↔ s.Returns n := by
  unfold State.Returns State.Open
  rw [State.concluded_call, (s.concluded_settings reason).2.2, State.concluded_radio]

theorem State.afterEnding_idle (part : s.call.part = none) (ends : ∀ n, ¬ s.Returns n) : s.afterEnding = s.setCall .idle := by
  unfold State.afterEnding
  rw [part]
  cases note : s.call.note with
  | none => rfl
  | some n =>
    refine if_neg fun on => ends n ?_
    rw [Bool.and_eq_true, Bool.and_eq_true, decide_eq_true_iff, ← s.open_iff] at on
    exact ⟨on.1.1, on.1.2, note, on.2⟩

theorem State.afterEnding_callback (part : s.call.part = none) (h : s.Returns n) : s.afterEnding = s.formPart n := by
  unfold State.afterEnding
  rw [part, h.2.2.1]
  exact if_pos (by rw [Bool.and_eq_true, Bool.and_eq_true, decide_eq_true_iff, ← s.open_iff]; exact ⟨⟨h.1, h.2.1⟩, h.2.2.2⟩)

/-! ### The callback part that is formed (R139) -/

variable (s n) in
/-- The held slot of a part that is formed now. -/
def State.heldSlot : Option Nat := if s.noteStands n then some n.slot else none

/-- The callback part that is formed at an ending, with its held slot. -/
def CallbackPart.formed (window : Nat) (n : ConnectionNote) (slot : Option Nat) : CallbackPart :=
  ⟨window * 1000, 0, true, some ⟨n.radio, n.network, n.generation, n.cell, slot⟩, none⟩

variable (s n) in
/-- The held slot is pinned, and the part stands. -/
def State.parted : State :=
  (if s.noteStands n then s.pinSlot n.slot else s).mapCall fun c =>
    { c with part := some (.formed s.profile.window n (s.heldSlot n)) }

theorem State.formPart_eq : s.formPart n
    = (((s.parted n).snoozeTest false).enqueue n.radio (.callback (.hold n.network n.cell))).setCall .callback := rfl

theorem State.heldSlot_iff (i : Nat) : s.heldSlot n = some i
    ↔ i = n.slot ∧ ∃ e, s.entry i = some e ∧ e.key = (n.radio, n.network, n.generation, n.cell) := by
  have stands : s.noteStands n = true ↔ ∃ e, s.entry n.slot = some e ∧ e.key = (n.radio, n.network, n.generation, n.cell) := by
    unfold State.noteStands
    rw [Option.any_eq_true]
    simp only [Bool.and_eq_true, beq_iff_eq, Entry.key, Prod.mk.injEq, and_assoc]
  unfold State.heldSlot
  split
  · next yes => exact ⟨fun h => by obtain rfl := Option.some.inj h; exact ⟨rfl, stands.1 yes⟩, fun h => congrArg some h.1.symm⟩
  · next no => exact ⟨nofun, fun ⟨same, h⟩ => absurd (stands.2 (same ▸ h)) no⟩

theorem State.parted_tables : Tables s (if s.noteStands n then s.pinSlot n.slot else s)
    ∧ Posts s (if s.noteStands n then s.pinSlot n.slot else s) := by
  split
  · exact ⟨s.pinSlot_tables _, s.pinSlot_posts _⟩
  · exact ⟨.refl s, .refl s⟩

theorem State.parted_entry (j : Nat) : (s.parted n).entry j
    = (s.entry j).map fun e => { e with pin := e.pin || decide (s.heldSlot n = some j) } := by
  show (if s.noteStands n then s.pinSlot n.slot else s).entry j = _
  unfold State.heldSlot
  split
  · rw [State.pinSlot_entry]
    by_cases same : j = n.slot
    · rw [if_pos same, same]
      simp only [decide_true, Bool.or_true]
    · simp only [if_neg same, Option.some.injEq, Ne.symm same, decide_false, Bool.or_false, Option.map_id']
  · simp only [reduceCtorEq, decide_false, Bool.or_false, Option.map_id']

theorem State.formPart_passes : Passes (s.parted n) (s.formPart n) :=
  (Passes.of_tends (State.snoozeTest_tends (e := NoneEnds) _ false)).trans ((Passes.enqueue _ _ _).trans (.setCall _ _))

theorem State.formPart_call :
    (s.formPart n).call = { s.call with state := .callback, part := some (.formed s.profile.window n (s.heldSlot n)) } := by
  rw [State.formPart_eq, State.setCall_other _ (by decide), (State.enqueue_quiet _ _ _).call, (State.snoozeTest_quiet _ false).call]
  exact congrArg (fun c : CallRecord => { c with state := .callback, part := some (.formed s.profile.window n (s.heldSlot n)) })
    State.parted_tables.1.call

/-- The HOLD of a part that is formed waits for its radio (R139). -/
theorem State.formPart_hold (h : s.Open n.radio) : .callback (.hold n.network n.cell) ∈ ((s.formPart n).radio n.radio).queue := by
  have state : (((s.parted n).snoozeTest false).radio n.radio).state = (s.radio n.radio).state :=
    (congrArg RadioContext.state (((State.snoozeTest_quiet (s.parted n) false).core n.radio).trans
      ((State.parted_tables (s := s) (n := n)).1.core n.radio)) : _)
  have live : (((s.parted n).snoozeTest false).radio n.radio).state ≠ .off
      ∧ (((s.parted n).snoozeTest false).radio n.radio).state ≠ .fault := by
    rw [state]
    rcases h with k | k <;> rw [k] <;> decide
  rw [State.formPart_eq, State.setCall_mem _ _ _ OrderKind.noConfusion OrderKind.noConfusion, State.queue_enqueue,
    if_pos ⟨rfl, live⟩]
  exact List.mem_append_right _ (List.mem_singleton_self _)

end

/-! ### The call has ended -/

/-- The call has ended in `t`: what does not rest on whether it is in IDLE or in CALLBACK (R100). -/
structure State.Concludes (s t : State) (reason : EndReason) : Prop where
  core : ∀ q, t.core q = s.core q
  mem : ∀ q (o : Order), o.kind = .cancel ∨ o.kind = .attempt → (o ∈ (t.radio q).queue ↔ o ∈ (s.radio q).queue)
  journal : s.journal.records.length < 32 →
    t.journal = { s.journal with records := s.journal.records ++ [s.endRecord reason] }
  posts : Posts s t
  posted : (t.port .station).pending.call = true
  settings : s.settingsKept t

/-- The call has ended in `t`, in IDLE, or in CALLBACK with its part formed (R100, R139). -/
structure State.Ended (s t : State) (reason : EndReason) : Prop extends s.Concludes t reason where
  idle : (∀ n, ¬ s.Returns n) →
    t.call = { s.call with state := .idle, startTime := none, carrying := none, ending := none }
    ∧ ∀ j, t.entry j = (s.entry j).map ({ · with excludedFor := none })
  callback : ∀ n, s.Returns n → ∃ slot : Option Nat,
    (∀ i, slot = some i ↔ i = n.slot ∧ ∃ e, s.entry i = some e ∧ e.key = (n.radio, n.network, n.generation, n.cell))
    ∧ t.call = { s.call with
        state := .callback, carrying := none, ending := none, part := some (.formed s.profile.window n slot) }
    ∧ .callback (.hold n.network n.cell) ∈ (t.radio n.radio).queue
    ∧ ∀ j, t.entry j = (s.entry j).map fun e => { e with excludedFor := none, pin := e.pin || decide (slot = some j) }

section
variable {s t w : State} {reason : EndReason}

theorem State.concludes_of (tables : Tables (s.concluded reason) w) (noticed : Posts (s.concluded reason) w)
    (h : Passes w t) (posted : (t.port .station).pending.call = true) : s.Concludes t reason where
  core q := (h.core q).trans ((tables.core q).trans (by unfold State.core; rw [State.concluded_radio]))
  mem q o kind := (h.mem q o kind).trans (by rw [tables.radio, State.concluded_radio])
  journal room := h.journal.trans (tables.journal.trans ((s.concluded_tables reason).journal.trans (s.writeRecord_journal _ room)))
  posts := ((s.writeRecord_posts _).trans ((State.clearExclusions_posts _).trans
    (.of_ports (t := s.concluded reason) rfl))).trans (noticed.trans h.posts)
  posted := posted
  settings := (s.concluded_settings reason).trans (tables.around.settings.trans h.settings)

/-- What an ending without a callback part leaves (R100). -/
theorem State.completeEnding_ended (part : s.call.part = none) (running : s.call.state ≠ .idle) (calling : s.call.state ≠ .callback) :
    s.Ended (s.completeEnding reason) reason := by
  have call := s.concluded_call reason
  have partless : (s.concluded reason).call.part = none := by rwa [call]
  show s.Ended (s.concluded reason).afterEnding reason
  by_cases returns : ∃ n, s.Returns n
  · obtain ⟨n, back⟩ := returns
    have back' := State.concluded_returns (reason := reason).2 back
    have pin := State.parted_tables (s := s.concluded reason) (n := n)
    rw [State.afterEnding_callback partless back']
    refine ⟨State.concludes_of pin.1 pin.2 ((Passes.mapCall _ _).trans State.formPart_passes) ?_,
      fun no => absurd back (no n), fun m also => ?_⟩
    · rw [State.formPart_eq]
      refine State.setCall_posted _ ?_
      rw [(State.enqueue_quiet _ _ _).call, (State.snoozeTest_quiet _ false).call]
      show (if (s.concluded reason).noteStands n then (s.concluded reason).pinSlot n.slot else s.concluded reason).call.state ≠ _
      rwa [pin.1.call, call]
    · obtain rfl : m = n := Option.some.inj (also.2.2.1.symm.trans back.2.2.1)
      refine ⟨(s.concluded reason).heldSlot m, fun i => ?_, ?_, State.formPart_hold back'.2.2.2, fun j => ?_⟩
      · rw [State.heldSlot_iff, State.concluded_entry]
        refine and_congr Iff.rfl ?_
        cases s.entry i <;> simp [Entry.key]
      · rw [State.formPart_call, call, (s.concluded_settings reason).2.2]
      · rw [State.formPart_passes.entry, State.parted_entry, State.concluded_entry, Option.map_map]
        rfl
  · have ends (n : ConnectionNote) : ¬ s.Returns n := fun h => returns ⟨n, h⟩
    have eq := State.afterEnding_idle partless fun n h => ends n (State.concluded_returns.1 h)
    have ne : (s.concluded reason).call.state ≠ .idle := by rwa [call]
    rw [eq]
    refine ⟨State.concludes_of (.refl _) (.refl _) (.setCall _ _) (State.setCall_posted _ ne), fun _ => ⟨?_, fun j => ?_⟩,
      fun n h => absurd h (ends n)⟩
    · rw [State.setCall_call, if_neg ne, call]
      rfl
    · rw [State.setCall_entry, State.concluded_entry]

end

end Sys2Proof.Machine
end

section
/-! PROOFS. Attempts that end together with a call, and the expiry of the ending timer (R98, R99, R100). -/

namespace Sys2Proof.Machine

/-! ### Attempts that have ended -/

/-- From `s` to `t` the attempts of `l` have ended: their radios are released, their targets unpinned and the records `xs`
written; the other radios keep all but their queues, CANCEL and ATTEMPT orders among them. -/
structure State.Clears (s t : State) (l : List Attempt) (xs : List JournalRecord) : Prop where
  core : ∀ q, (∀ a ∈ l, a.radio ≠ q) → t.core q = s.core q
  mem : ∀ q, (∀ a ∈ l, a.radio ≠ q) → ∀ o : Order, o.kind = .cancel ∨ o.kind = .attempt →
    (o ∈ (t.radio q).queue ↔ o ∈ (s.radio q).queue)
  released : ∀ a ∈ l, s.Released t a.radio
  journal : s.journal.records.length + xs.length ≤ 32 → s.Journals t xs
  kept : ∀ i, s.Unpinned i → t.Unpinned i
  unpinned : ∀ a ∈ l, t.Unpinned a.slot
  posts : Posts s t
  settings : s.settingsKept t

section
variable {s t u w : State} {a : Attempt} {l k : List Attempt} {xs ys : List JournalRecord}

/-- The orders of the radios but the attempt's own, and its core but for the take deadline, have passed to `u`. -/
structure State.Drops (s u : State) (a : Attempt) : Prop where
  core : ∀ q, { u.core q with take := none } = { s.core q with take := none }
  other : ∀ q, q ≠ a.radio → u.core q = s.core q
  mem : ∀ q, q ≠ a.radio → ∀ o, o ∈ (u.radio q).queue ↔ o ∈ (s.radio q).queue
  posts : Posts s u

theorem State.Quits.clears {left : Entry → Option Entry} {x : JournalRecord} (h : s.Quits u t a left x)
    (unpins : ∀ e, (left e).bind Entry.pinner = none) (drops : s.Drops u a) (busy : s.Busy a.radio) :
    s.Clears t [a] [x] where
  core q ne := by
    have ne := (ne a (List.mem_singleton_self a)).symm
    rw [h.core, if_neg ne, drops.other q ne]
  mem q ne o kind := by
    have ne := (ne a (List.mem_singleton_self a)).symm
    rw [h.mem q o (unlike_survey kind).1 (unlike_survey kind).2, drops.mem q ne]
  released b mem := by
    obtain rfl := List.mem_singleton.1 mem
    exact h.released busy (drops.core _)
  journal room := h.journal room
  kept i none := by
    rw [← State.pinOf_none, h.pinOf unpins, State.pinOf_none.2 none, ite_self]
  unpinned b mem := by
    obtain rfl := List.mem_singleton.1 mem
    exact h.unpinned unpins
  posts := drops.posts.trans h.posts
  settings := h.settings

theorem State.Clears.refl (s : State) : s.Clears s [] [] :=
  ⟨fun _ _ => rfl, fun _ _ _ _ => .rfl, fun _ mem => absurd mem List.not_mem_nil,
    fun _ => congrArg (fun l => ({ s.journal with records := l } : Journal)) (List.append_nil _).symm, fun _ => id,
    fun _ mem => absurd mem List.not_mem_nil, .refl s, rfl, rfl, rfl⟩

theorem State.Journals.trans (h : s.Journals t xs) (k : t.Journals u ys) : s.Journals u (xs ++ ys) := by
  unfold State.Journals at *
  rw [k, h, List.append_assoc]

theorem State.Journals.length (h : s.Journals t xs) : t.journal.records.length = s.journal.records.length + xs.length := by
  rw [h, List.length_append]

/-- One end of attempts after another, of other radios. -/
theorem State.Clears.trans (h : s.Clears t l xs) (g : t.Clears u k ys)
    (apart : ∀ a ∈ l, ∀ b ∈ k, b.radio ≠ a.radio) : s.Clears u (l ++ k) (xs ++ ys) where
  core q ne := (g.core q fun b mem => ne b (List.mem_append_right _ mem)).trans
    (h.core q fun a mem => ne a (List.mem_append_left _ mem))
  mem q ne o kind := (g.mem q (fun b mem => ne b (List.mem_append_right _ mem)) o kind).trans
    (h.mem q (fun a mem => ne a (List.mem_append_left _ mem)) o kind)
  released b mem := by
    rcases List.mem_append.1 mem with first | second
    · exact (h.released b first).congr (g.core _ (apart b first))
    · by_cases again : ∃ a ∈ l, b.radio = a.radio
      · obtain ⟨a, first, same⟩ := again
        exact absurd same (apart a first b second)
      · have core := h.core b.radio fun a first same => again ⟨a, first, same.symm⟩
        have own : u.core b.radio = { t.core b.radio with state := .ready, start := none, take := (u.core b.radio).take } :=
          (congrArg (fun c : RadioContext => { c with queue := [] }) (g.released b second) : _)
        exact .of_core (own.trans (by rw [core]))
  journal room := by
    rw [List.length_append] at room
    have first := h.journal (by omega)
    exact first.trans (g.journal (by rw [first.length]; omega))
  kept i none := g.kept i (h.kept i none)
  unpinned b mem := (List.mem_append.1 mem).elim (fun first => g.kept _ (h.unpinned b first)) (g.unpinned b)
  posts := h.posts.trans g.posts
  settings := h.settings.trans g.settings

theorem State.Clears.passes (h : s.Clears t l xs) (g : Passes t u) : s.Clears u l xs where
  core q ne := (g.core q).trans (h.core q ne)
  mem q ne o kind := (g.mem q o kind).trans (h.mem q ne o kind)
  released a mem := (h.released a mem).congr (g.core _)
  journal room := g.journal.trans (h.journal room)
  kept i none := by
    have := h.kept i none
    unfold State.Unpinned at *
    rwa [g.entry]
  unpinned a mem := by
    have := h.unpinned a mem
    unfold State.Unpinned at *
    rwa [g.entry]
  posts := h.posts.trans g.posts
  settings := h.settings.trans g.settings

theorem State.Clears.radioKept (h : s.Clears t l xs) {q : Radio} (ne : ∀ a ∈ l, a.radio ≠ q) : s.radioKept t q :=
  State.radioKept_iff.2 (h.core q ne)

/-- A radio is READY or SURVEYING after the attempts have ended when it was, or had one of them. -/
theorem State.Clears.open_iff (h : s.Clears t l xs) (r : Radio) : t.Open r ↔ r ∈ l.map (·.radio) ∨ s.Open r := by
  rw [List.mem_map]
  by_cases mem : ∃ a ∈ l, a.radio = r
  · obtain ⟨a, mem, rfl⟩ := mem
    have ready : (t.radio a.radio).state = .ready := (congrArg RadioContext.state (h.released a mem) : _)
    exact ⟨fun _ => .inl ⟨a, mem, rfl⟩, fun _ => .inl ready⟩
  · have state : (t.radio r).state = (s.radio r).state :=
      (congrArg RadioContext.state (h.core r fun a m same => mem ⟨a, m, same⟩) : _)
    unfold State.Open
    rw [state]
    exact ⟨.inr, fun k => k.resolve_left mem⟩

end

/-! ### A call that ends with its attempts (R98, R100) -/

section
variable {s t u : State} {l : List Attempt} {xs : List JournalRecord} {reason : EndReason} {n : ConnectionNote}

/-- The call in `t` is that of `s` in what the end of a call rests on. -/
structure State.SameCall (s t : State) : Prop where
  number : t.call.number = s.call.number
  start : t.call.startTime = s.call.startTime
  ever : t.call.everConnected = s.call.everConnected
  note : t.call.note = s.call.note


theorem State.SameCall.endRecord (same : s.SameCall t) (clock : t.journal.clock = s.journal.clock) :
    t.endRecord reason = s.endRecord reason := by
  unfold State.endRecord State.since State.now
  rw [same.number, same.start, clock]

theorem State.Clears.returns (h : s.Clears t l xs) (same : s.SameCall t) :
    t.Returns n ↔ s.endsCallback (l.map (·.radio)) n := by
  unfold State.Returns State.endsCallback
  rw [same.ever, same.note, h.settings.2.2, h.open_iff]

theorem State.endsIdle_no (ends : s.endsIdle (l.map (·.radio))) (n : ConnectionNote) :
    ¬ s.endsCallback (l.map (·.radio)) n := by
  rintro ⟨ever, window, note, back⟩
  rcases ends with no | none | away
  · rw [ever] at no
    cases no
  · exact absurd none (by omega)
  · exact back.elim (away n note).1 (away n note).2

/-- A part formed at the end of a call whose attempts have ended (R139). -/
theorem State.Ended.partFormed (e : t.Ended u reason) (settings : s.settingsKept t) (back : t.Returns n) :
    ∃ p, s.PartFormed u n p
      ∧ u.call = { t.call with state := .callback, carrying := none, ending := none, part := some p } := by
  obtain ⟨slot, is, call, hold, entry⟩ := e.callback n back
  refine ⟨_, ⟨slot, fun i => ?_, by rw [CallbackPart.formed, settings.2.2], hold, fun i f held at_ => ?_⟩, call⟩
  · rw [is, entry]
    refine and_congr Iff.rfl ?_
    cases t.entry i <;> simp [Entry.key]
  · rw [entry, Option.map_eq_some_iff] at at_
    obtain ⟨f, -, rfl⟩ := at_
    show (f.pin || decide (slot = some i)) = true
    rw [held, decide_eq_true rfl, Bool.or_true]

theorem State.Ended.excluded (e : t.Ended u reason) {i : Nat} {f : Entry} (at_ : u.entry i = some f) :
    f.excludedFor = none := by
  by_cases back : ∃ n, t.Returns n
  · obtain ⟨n, back⟩ := back
    obtain ⟨slot, -, -, -, entry⟩ := e.callback n back
    rw [entry, Option.map_eq_some_iff] at at_
    obtain ⟨f, -, rfl⟩ := at_
    rfl
  · rw [(e.idle fun n h => back ⟨n, h⟩).2, Option.map_eq_some_iff] at at_
    obtain ⟨f, -, rfl⟩ := at_
    rfl

/-- The pins that are gone stay so at an end in IDLE. -/
theorem State.Ended.unpinned (e : t.Ended u reason) (ends : ∀ n, ¬ t.Returns n) {i : Nat} (none : t.Unpinned i) :
    u.Unpinned i := by
  intro f at_
  rw [(e.idle ends).2, Option.map_eq_some_iff] at at_
  obtain ⟨f, was, rfl⟩ := at_
  exact none f was

theorem State.Ended.journals (e : t.Ended u reason) (h : s.Clears t l xs) (same : s.SameCall t)
    (room : s.journal.records.length + xs.length < 32) : s.Journals u (xs ++ [s.endRecord reason]) := by
  have first := h.journal (by omega)
  refine first.trans ((e.journal (by rw [first.length]; omega)).trans ?_)
  rw [same.endRecord (by rw [first])]

/-- The state after an ending hears nothing more of its radios. -/
theorem State.Ended.settled (e : t.Ended u reason) (x : State) : settle x u = u := by
  have state : u.call.state = .idle ∨ u.call.state = .callback := by
    by_cases back : ∃ n, t.Returns n
    · obtain ⟨n, back⟩ := back
      obtain ⟨slot, -, call, -⟩ := e.callback n back
      exact .inr (by rw [call])
    · exact .inl (by rw [(e.idle fun n h => back ⟨n, h⟩).1])
  refine settle_deaf ?_ ?_ ?_ <;> rcases state with k | k <;> rw [k] <;> decide

theorem State.Ended.released (e : t.Ended u reason) {q : Radio} (h : s.Released t q) : s.Released u q := h.congr (e.core q)

end

end Sys2Proof.Machine
end

section
/-! PROOFS. CALL END with the attempts in flight (R91, R98, R100, R117, R119). -/

namespace Sys2Proof.Machine

/-! ### Attempts that are withdrawn (R119) -/

/-- No ATTEMPT order and no take deadline is left for the radio, and its CANCEL orders are those it had. -/
def State.Rested (s t : State) (r : Radio) : Prop :=
  (t.radio r).take = none ∧ (∀ o ∈ (t.radio r).queue, o.kind ≠ .attempt)
    ∧ ∀ n c, .cancel n c ∈ (t.radio r).queue ↔ .cancel n c ∈ (s.radio r).queue

section
variable {s t u : State} {a b : Attempt} {r : Radio}

theorem State.Rested.congr (h : s.Rested t r) (core : u.core r = t.core r)
    (mem : ∀ o : Order, o.kind = .cancel ∨ o.kind = .attempt → (o ∈ (u.radio r).queue ↔ o ∈ (t.radio r).queue)) :
    s.Rested u r :=
  ⟨(congrArg RadioContext.take core : _).trans h.1, fun o now kind => h.2.1 o ((mem o (.inr kind)).1 now) kind,
    fun n c => (mem _ (.inl rfl)).trans (h.2.2 n c)⟩

theorem State.quitting_drops (s : State) (a : Attempt) : s.Drops (s.quitting a) a := by
  by_cases yes : s.AttemptOrder a.radio a.number
  · have present := State.quitting_present yes
    refine ⟨fun q => ?_, fun q ne => by rw [(present q).1, if_neg ne], fun q ne o => by rw [(present q).2, if_neg ne],
      State.quitting_posts⟩
    rw [(present q).1]
    split <;> rfl
  · have radio (q : Radio) := State.quitting_absent (q := q) yes
    have core (q : Radio) : (s.quitting a).core q = s.core q := by unfold State.core; rw [radio]
    exact ⟨fun q => by rw [core], fun q _ => core q, fun q _ o => by rw [radio], State.quitting_posts⟩

theorem Entry.left_quietly (p : Profile) (e : Entry) : (e.left p .noBlame false).bind Entry.pinner = none := e.left_pinner _ _ _

/-- A quiet end of an attempt whose radio is busy with it (R118, R119, R132). -/
theorem State.endQuietly_clears (s : State) (a : Attempt) (o : RecordOutcome) (busy : s.Busy a.radio) :
    s.Clears (s.endQuietly a o) [a] [s.attemptRecord a o none] :=
  (s.endQuietly_quits a o).clears (Entry.left_quietly _) (s.quitting_drops a) busy

theorem State.endQuietly_call (s : State) (a : Attempt) (o : RecordOutcome) : (s.endQuietly a o).call =
    { s.call with attempts := s.call.attempts.filter fun b => b.number != a.number } := by
  rw [(s.endQuietly_quits a o).call, State.quitting_call]

/-- A withdrawn attempt leaves its radio without the order and the deadline (R119). -/
theorem State.withdraw_rested (s : State) (a : Attempt) (yes : s.AttemptOrder a.radio a.number) :
    s.Rested (s.withdraw a) a.radio := by
  have quits := s.endQuietly_quits a .withdrawn
  obtain ⟨core, queue⟩ := State.quitting_present yes a.radio
  rw [if_pos rfl] at core queue
  have mem (o : Order) (kind : o.kind = .cancel ∨ o.kind = .attempt) :
      o ∈ ((s.withdraw a).radio a.radio).queue ↔ o ∈ (s.radio a.radio).queue ∧ o.kind ≠ .attempt := by
    rw [← mem_dropKind, ← queue]
    exact quits.mem _ o (unlike_survey kind).1 (unlike_survey kind).2
  refine ⟨?_, fun o now kind => ((mem o (.inr kind)).1 now).2 kind,
    fun n c => (mem _ (.inl rfl)).trans ⟨And.left, fun now => ⟨now, OrderKind.noConfusion⟩⟩⟩
  have take : ((s.withdraw a).core a.radio).take = none := by
    refine (congrArg RadioContext.take ((quits.core a.radio).trans (if_pos rfl)) : _).trans ?_
    rw [core]
    unfold RadioContext.released RadioContext.enter
    split <;> rfl
  exact take

theorem State.Rested.clears {l : List Attempt} {xs : List JournalRecord} (h : s.Rested t r) (k : t.Clears u l xs)
    (ne : ∀ a ∈ l, a.radio ≠ r) : s.Rested u r := h.congr (k.core r ne) (k.mem r ne)

end

/-! ### Attempts that are given a CANCEL (R91, R117) -/

/-- An attempt under CANCEL. -/
def Attempt.cancelled (x : Attempt) : Attempt := { x with disposition := some .cancel, setup := none, answer := none }

/-- From `s` to `t` the wanted attempts of `l` are sent their CANCEL orders; the radios keep all but their queues. -/
structure State.Cancels (s t : State) (l : List Attempt) : Prop where
  core : ∀ q, t.core q = s.core q
  mem : ∀ q (o : Order), o.kind = .attempt ∨ (o.kind = .cancel ∧ ∀ a ∈ l, a.disposition = none → a.radio ≠ q) →
    (o ∈ (t.radio q).queue ↔ o ∈ (s.radio q).queue)
  sent : ∀ a ∈ l, a.disposition = none → (s.radio a.radio).state ≠ .off → (s.radio a.radio).state ≠ .fault →
    .cancel a.number .callerEnd ∈ (t.radio a.radio).queue
  table : t.table = s.table
  journal : t.journal = s.journal
  posts : Posts s t
  settings : s.settingsKept t

section
variable {s t u : State} {a b : Attempt} {l k : List Attempt}

theorem State.cancelAttempt_call (s : State) (a : Attempt) : (s.cancelAttempt a).call = if a.disposition = none then
    { s.call with attempts := s.call.attempts.map fun x => if x.number = a.number then x.cancelled else x } else s.call := by
  unfold State.cancelAttempt
  by_cases wanted : a.disposition = none
  · rw [if_pos ((a.isWanted_iff).2 wanted), if_pos wanted, (State.enqueue_quiet _ _ _).call]
    rfl
  · rw [if_neg fun yes => wanted ((a.isWanted_iff).1 yes), if_neg wanted]

theorem State.Cancels.refl (s : State) (none : ∀ a ∈ l, a.disposition ≠ none) : s.Cancels s l :=
  ⟨fun _ => rfl, fun _ _ _ => .rfl, fun a mem wanted => absurd wanted (none a mem), rfl, rfl, .refl s, rfl, rfl, rfl⟩

theorem State.cancelAttempt_cancels (s : State) (a : Attempt) : s.Cancels (s.cancelAttempt a) [a] := by
  by_cases wanted : a.disposition = none
  · rw [show s.cancelAttempt a = (s.mapAttempt a.number Attempt.cancelled).enqueue a.radio (.cancel a.number .callerEnd) from
      if_pos ((a.isWanted_iff).2 wanted)]
    have quiet := (s.mapAttempt a.number Attempt.cancelled).enqueue_quiet a.radio (.cancel a.number .callerEnd)
    have queue := (s.mapAttempt a.number Attempt.cancelled).queue_enqueue a.radio
    refine ⟨quiet.core, fun q o kind => ?_, fun b mem _ off fault => ?_, quiet.table, quiet.journal,
      .trans (t := s.mapAttempt a.number Attempt.cancelled) (.of_ports rfl) (State.enqueue_posts _ _ _),
      (State.enqueue_inner (s.mapAttempt a.number Attempt.cancelled) _ _).settings⟩
    · rw [queue]
      split
      · next same =>
        obtain ⟨rfl, -⟩ := same
        have other : o.kind ≠ .cancel := kind.elim (fun k => by rw [k]; decide)
          fun k => absurd rfl (k.2 a (List.mem_singleton_self a) wanted)
        rw [List.mem_append, mem_dropKind, List.mem_singleton]
        exact ⟨fun h => h.elim And.left fun e => absurd (congrArg Order.kind e) other, fun h => .inl ⟨h, other⟩⟩
      · rfl
    · obtain rfl := List.mem_singleton.1 mem
      rw [queue, if_pos ⟨rfl, off, fault⟩]
      exact List.mem_append_right _ (List.mem_singleton_self _)
  · rw [show s.cancelAttempt a = s from if_neg fun yes => wanted ((a.isWanted_iff).1 yes)]
    exact .refl s fun b mem => by rwa [List.mem_singleton.1 mem]

theorem State.Cancels.trans (h : s.Cancels t l) (g : t.Cancels u k) (apart : ∀ a ∈ l, ∀ b ∈ k, b.radio ≠ a.radio) :
    s.Cancels u (l ++ k) where
  core q := (g.core q).trans (h.core q)
  mem q o kind := (g.mem q o (kind.imp_right fun c => ⟨c.1, fun b m => c.2 b (List.mem_append_right _ m)⟩)).trans
    (h.mem q o (kind.imp_right fun c => ⟨c.1, fun b m => c.2 b (List.mem_append_left _ m)⟩))
  sent x mem wanted off fault := by
    rcases List.mem_append.1 mem with first | second
    · refine (g.mem x.radio _ (.inr ⟨rfl, fun b m _ => ?_⟩)).2 (h.sent x first wanted off fault)
      exact apart x first b m
    · have state : (t.radio x.radio).state = (s.radio x.radio).state := (congrArg RadioContext.state (h.core x.radio) : _)
      exact g.sent x second wanted (by rwa [state]) (by rwa [state])
  table := g.table.trans h.table
  journal := g.journal.trans h.journal
  posts := h.posts.trans g.posts
  settings := h.settings.trans g.settings

theorem State.Cancels.passes (h : s.Cancels t l) (g : Passes t u) : s.Cancels u l where
  core q := (g.core q).trans (h.core q)
  mem q o kind := (g.mem q o (kind.elim .inr fun c => .inl c.1)).trans (h.mem q o kind)
  sent x mem wanted off fault := (g.mem _ _ (.inl rfl)).2 (h.sent x mem wanted off fault)
  table := g.table.trans h.table
  journal := g.journal.trans h.journal
  posts := h.posts.trans g.posts
  settings := h.settings.trans g.settings

end

/-! ### The end of the call (R91, R98) -/

/-- The call in ENDING, its attempts disposed of (R91). -/
def State.stopping (s : State) : State :=
  (((s.mapCall fun c => { c with backoff := none }).setStagger .stopped).setRoute none).enterEnding

/-- The call record in ENDING. -/
def CallRecord.stopping (c : CallRecord) : CallRecord :=
  { c.unrouted with state := .ending, backoff := none, stagger := .stopped, ending := some 0 }

/-- Without a route and with the lines deasserted, nothing is left to deassert (R136). -/
theorem CallRecord.unrouted_self {c : CallRecord} (route : c.route = none) (a : c.lineA = false) (b : c.lineB = false) :
    c.unrouted = c := by
  cases c
  obtain rfl : _ = Option.none := route
  obtain rfl : _ = false := a
  obtain rfl : _ = false := b
  rfl

theorem State.setRoute_none {s : State} (lines : s.call.route = none → s.call.lineA = false ∧ s.call.lineB = false) :
    (s.setRoute none).call = s.call.unrouted := by
  rw [State.setRoute_call]
  split
  · next off => exact (CallRecord.unrouted_self off (lines off).1 (lines off).2).symm
  · rfl

section
variable {s t h c : State} {l : List Attempt} {xs : List JournalRecord}

theorem State.endCall_eq (s : State) : s.endCall = settle s s.cancelAll.stopping.testEnding := rfl

theorem State.stopping_passes (s : State) : Passes s s.stopping :=
  ((Passes.mapCall s _).trans (.mapCall _ _)).trans ((Passes.setRoute _ none).trans ((Passes.mapCall _ _).trans (.setCall _ _)))

theorem State.stopping_call (lines : s.call.route = none → s.call.lineA = false ∧ s.call.lineB = false) :
    s.stopping.call = s.call.stopping := by
  have routed := State.setRoute_none (s := (s.mapCall fun c => { c with backoff := none }).setStagger .stopped) lines
  refine (State.setCall_other _ (by decide)).trans ?_
  exact (congrArg (fun c : CallRecord => { c with ending := some 0, state := .ending }) routed : _)

theorem State.stopping_posted (ne : s.call.state ≠ .ending) : (s.stopping.port .station).pending.call = true := by
  refine State.setCall_posted _ ?_
  show (((s.mapCall fun c => { c with backoff := none }).setStagger .stopped).setRoute none).call.state ≠ _
  rw [State.setRoute_call]
  split <;> exact ne

theorem State.testEnding_stays (some : s.call.attempts ≠ []) : s.testEnding = s := if_neg fun h => some h.2.1

theorem State.testEnding_over (ending : s.call.state = .ending) (empty : s.call.attempts = []) (part : s.call.part = none) :
    s.testEnding = s.completeEnding .callerEnd :=
  if_pos ⟨ending, empty, by unfold State.legUp; rw [part]; rfl⟩

/-- A call whose attempts are all withdrawn ends at once (R91, R98, R119). -/
theorem State.endCall_over (clears : h.Clears h.cancelAll l xs) (call : h.cancelAll.call = { h.call with attempts := [] })
    (part : h.call.part = none) (lines : h.call.route = none → h.call.lineA = false ∧ h.call.lineB = false) :
    h.cancelAll.stopping.call = { h.call.stopping with attempts := [] }
    ∧ h.Clears h.cancelAll.stopping l xs ∧ h.SameCall h.cancelAll.stopping
    ∧ h.cancelAll.stopping.Ended h.endCall .callerEnd := by
  have stopped : h.cancelAll.stopping.call = { h.call.stopping with attempts := [] } := by
    rw [State.stopping_call (by rw [call]; exact lines), call]
    rfl
  have completes := State.testEnding_over (s := h.cancelAll.stopping) (by rw [stopped]; rfl) (by rw [stopped])
    (by rw [stopped]; exact part)
  have ended := State.completeEnding_ended (s := h.cancelAll.stopping) (reason := .callerEnd) (by rw [stopped]; exact part)
    (by rw [stopped]; exact (nofun : CallState.ending ≠ .idle)) (by rw [stopped]; exact (nofun : CallState.ending ≠ .callback))
  refine ⟨stopped, clears.passes h.cancelAll.stopping_passes, ?_, ?_⟩
  · constructor <;> rw [stopped] <;> rfl
  · rw [State.endCall_eq, completes, ended.settled]
    exact ended

/-- A call with attempts left is ENDING (R91). -/
theorem State.endCall_ending {k : List Attempt} (some : k ≠ []) (call : h.cancelAll.call = { h.call with attempts := k })
    (lines : h.call.route = none → h.call.lineA = false ∧ h.call.lineB = false) :
    h.endCall = h.cancelAll.stopping ∧ h.cancelAll.stopping.call = { h.call.stopping with attempts := k } := by
  have stopped : h.cancelAll.stopping.call = { h.call.stopping with attempts := k } := by
    rw [State.stopping_call (by rw [call]; exact lines), call]
    rfl
  refine ⟨?_, stopped⟩
  rw [State.endCall_eq, State.testEnding_stays (by rw [stopped]; exact some)]
  refine settle_deaf ?_ ?_ ?_ <;> rw [stopped] <;> exact nofun

end

end Sys2Proof.Machine
end

section
/-! PROOFS. CALL END where at most one attempt is in flight and no callback part stands (R91, R98, R100, R117, R119, R139). -/

namespace Sys2Proof.Machine

section
variable {h s t : State} {a : Attempt} {r : Radio}

/-! ### The answers of CALL END (R91) -/

theorem endRequest_idle (off : h.call.state = .idle
    ∨ (h.call.state = .callback ∧ ∀ p o, h.call.part = some p → p.offer = some o → o.ring = .ringing)) :
    h.endRequest = (h, only .idle) := by
  unfold State.endRequest
  rcases off with idle | ⟨callback, ringing⟩
  · rw [idle]
  · rw [callback]
    show h.endInCallback = _
    unfold State.endInCallback
    split
    · next p part =>
      split
      · next offer => exact absurd (ringing p _ part offer) Ring.noConfusion
      · rfl
      · rfl
    · rfl

theorem endRequest_ending (ending : h.call.state = .ending) : h.endRequest = (h, only .ok) := by
  unfold State.endRequest
  rw [ending]

theorem endRequest_endCall (calling : h.call.state = .seeking ∨ h.call.state = .placing ∨ h.call.state = .backoff
    ∨ h.call.state = .recovering ∨ h.call.state = .connected) (part : h.call.part = none) :
    h.endRequest = (h.endCall, only .ok) := by
  have offer : h.offer = none := by unfold State.offer; rw [part]; rfl
  have connected : h.endConnected = h.endCall := by unfold State.endConnected; rw [offer]
  unfold State.endRequest
  rcases calling with k | k | k | k | k <;> rw [k]
  exact congrArg (·, only .ok) connected

/-! ### The attempts, one by one -/

theorem State.withdrawQueued_absent (no : ¬ s.AttemptOrder a.radio a.number) : s.withdrawQueued a = s :=
  if_neg fun has => no ((s.hasAttemptOrder_iff _ _).1 has)

theorem State.withdrawQueued_present (yes : s.AttemptOrder a.radio a.number) : s.withdrawQueued a = s.withdraw a :=
  if_pos ((s.hasAttemptOrder_iff _ _).2 yes)

theorem State.cancelAll_eq (withdrawn : h.call.attempts.foldl State.withdrawQueued h = s) :
    h.cancelAll = s.call.attempts.foldl State.cancelAttempt s := by
  subst withdrawn
  rfl

theorem State.cancelAll_none (none : h.call.attempts = []) : h.cancelAll = h := by
  rw [State.cancelAll_eq (s := h) (by rw [none]; rfl), none]
  rfl

theorem State.cancelAll_taken (alone : h.call.attempts = [a]) (no : ¬ h.AttemptOrder a.radio a.number) :
    h.cancelAll = h.cancelAttempt a := by
  rw [State.cancelAll_eq (s := h) (by rw [alone]; exact State.withdrawQueued_absent no), alone]
  rfl

theorem State.withdraw_call_alone (alone : h.call.attempts = [a]) :
    (h.withdraw a).call = { h.call with attempts := [] } := by
  rw [State.withdraw, State.endQuietly_call, alone, filter_alone]

theorem State.cancelAll_queued (alone : h.call.attempts = [a]) (yes : h.AttemptOrder a.radio a.number) :
    h.cancelAll = h.withdraw a := by
  rw [State.cancelAll_eq (s := h.withdraw a) (by rw [alone]; exact State.withdrawQueued_present yes),
    State.withdraw_call_alone alone]
  rfl

/-! ### The urgent request at the end of a call (R85) -/

theorem State.setCall_calm {st : CallState} (from_ : s.call.state ≠ .seeking) (to_ : st ≠ .seeking) :
    (s.setCall st).survey.urgent = s.survey.urgent := by
  rw [State.setCall_eq]
  split
  · rfl
  · unfold State.callChanged
    rw [(MarksKept.snoozeTest _ false).urgent, if_neg to_, if_neg from_, State.post_survey]
    rfl

theorem State.completeEnding_calm {reason : EndReason} (ending : s.call.state = .ending) (part : s.call.part = none) :
    (s.completeEnding reason).survey.urgent = s.survey.urgent := by
  have call := s.concluded_call reason
  have state : (s.concluded reason).call.state ≠ .seeking := by rw [call]; show s.call.state ≠ _; rw [ending]; decide
  have survey : (s.concluded reason).survey = s.survey := (s.concluded_tables reason).survey
  have partless : (s.concluded reason).call.part = none := by rwa [call]
  show (s.concluded reason).afterEnding.survey.urgent = _
  by_cases returns : ∃ n, (s.concluded reason).Returns n
  · obtain ⟨n, back⟩ := returns
    have tables := State.parted_tables (s := s.concluded reason) (n := n)
    have quiet := ((s.concluded reason).parted n).snoozeTest_quiet false
    rw [State.afterEnding_callback partless back, State.formPart_eq, State.setCall_calm ?_ (by decide),
      show (State.enqueue _ n.radio _).survey = ((s.concluded reason).parted n |>.snoozeTest false).survey from
        (congrArg State.survey (State.enqueue_rest _ _ _) : _), (MarksKept.snoozeTest _ false).urgent]
    · exact congrArg Scheduler.urgent (tables.1.survey.trans survey)
    · rw [(State.enqueue_quiet _ _ _).call, quiet.call]
      show (if (s.concluded reason).noteStands n then (s.concluded reason).pinSlot n.slot
        else s.concluded reason).call.state ≠ _
      rwa [tables.1.call]
  · rw [State.afterEnding_idle partless fun n back => returns ⟨n, back⟩, State.setCall_calm state (by decide), survey]

/-- A CALL END in SEEKING ends the urgent request (R85). -/
theorem State.stopping_urgent (seeking : s.call.state = .seeking) : s.stopping.survey.urgent = false := by
  refine State.setCall_urgentEnd ?_ (by decide)
  show (((s.mapCall fun c => { c with backoff := none }).setStagger .stopped).setRoute none).call.state = _
  rw [State.setRoute_call]
  split <;> exact seeking

/-! ### What an ended call keeps of the attempts that ended with it -/

section
variable {l : List Attempt} {xs : List JournalRecord} {reason : EndReason} {u : State}

theorem State.Ended.radioKept (e : t.Ended u reason) (k : s.Clears t l xs) {q : Radio} (ne : ∀ a ∈ l, a.radio ≠ q) :
    s.radioKept u q := State.radioKept_iff.2 ((e.core q).trans (k.core q ne))

theorem State.Ended.settingsKept (e : t.Ended u reason) (k : s.Clears t l xs) : s.settingsKept u :=
  k.settings.trans e.settings

theorem State.Ended.rested (e : t.Ended u reason) (k : s.Rested t r) : s.Rested u r := k.congr (e.core r) (e.mem r)

end

end

/-- Settles O49: with no attempt the call ends at once, a taken attempt is sent its CANCEL, and an untaken one is
withdrawn before the ending completes. -/
theorem callEnd : Obligations.CallEnd := by
  intro s listens
  dsimp only
  generalize hh : s.opened .station = h
  have answers {t : State} {c : RespCode} (e : h.endRequest = (t, only c)) :
      exec (.callEnd .station) s = .next (t.answered .station (bare c)) :=
    State.next_station (f := State.endRequest) listens (by rw [hh]; exact e)
  refine ⟨fun off => answers (endRequest_idle off), fun ending => answers (endRequest_ending ending),
    fun calling part lines room => ⟨fun none => ?_, fun a alone wanted no off fault => ?_,
      fun a b c d e f alone unconnected busy queued never => ?_⟩⟩
  · have ends := answers (endRequest_endCall calling part)
    have same := State.cancelAll_none none
    obtain ⟨call, clears, kept, ended⟩ := State.endCall_over (h := h) (l := []) (xs := []) (by rw [same]; exact .refl h)
      (by rw [same, ← none]) part lines
    have call : h.cancelAll.stopping.call = h.call.stopping :=
      call.trans (congrArg (fun l => ({ h.call.stopping with attempts := l } : CallRecord)) none.symm : _)
    obtain ⟨d, since, record⟩ := h.endRecord_is .callerEnd
    refine ⟨h.endCall, ends, ⟨_, ⟨d, record, since⟩, ended.journals clears kept (by simp; omega)⟩, ended.posted, fun seeking => ?_,
      fun r => ended.radioKept clears fun _ mem => absurd mem List.not_mem_nil, ended.settingsKept clears, ?_, fun idle => ?_, fun n back => ?_⟩
    · have stopped : h.cancelAll.stopping.testEnding = h.cancelAll.stopping.completeEnding .callerEnd :=
        State.testEnding_over (by rw [call]; rfl) (by rw [call]; exact none) (by rw [call]; exact part)
      rw [State.endCall_eq, stopped, (State.completeEnding_ended (by rw [call]; exact part)
        (by rw [call]; exact (nofun : CallState.ending ≠ .idle)) (by rw [call]; exact (nofun : CallState.ending ≠ .callback))).settled,
        State.completeEnding_calm (by rw [call]; rfl) (by rw [call]; exact part), same, State.stopping_urgent seeking]
    · have kept := (ownersAlone _ _ _ ends nofun).2.2.2.2.2 nofun nofun nofun nofun
      rw [State.answered_linkCheck, ← State.opened_linkCheck s .station, hh] at kept
      exact kept
    · obtain ⟨idles, entry⟩ := ended.idle fun n back => State.endsIdle_no idle n ((clears.returns kept).1 back)
      refine ⟨idles.trans ?_, fun i => ?_⟩
      · rw [call]
        rfl
      · rw [entry, (h.cancelAll.stopping_passes).entry, same]
    · obtain ⟨slot, is, called, hold, entry⟩ := ended.callback n ((clears.returns kept).2 back)
      have same (i : Nat) : h.cancelAll.stopping.entry i = h.entry i := by rw [(h.cancelAll.stopping_passes).entry, same]
      refine ⟨slot, fun i => (is i).trans (by rw [same]), called.trans ?_, hold, fun i => ?_⟩
      · rw [call, clears.settings.2.2]
        rfl
      · rw [entry, same]
  · have no : ¬ h.AttemptOrder a.radio a.number := fun ⟨b, c, d, e, f, mem⟩ => no b c d e f mem
    have taken := State.cancelAll_taken alone no
    have cancels := (h.cancelAttempt_cancels a).passes (State.stopping_passes _)
    obtain ⟨eq, call⟩ := State.endCall_ending (h := h) (k := [a.cancelled]) (List.cons_ne_nil _ _)
      (by rw [taken, State.cancelAttempt_call, if_pos wanted, alone]; simp) lines
    rw [taken] at eq call
    refine ⟨_, answers ((endRequest_endCall calling part).trans (by rw [eq])), call,
      cancels.sent a (List.mem_singleton_self a) wanted off fault, State.stopping_posted ?_, cancels.table, cancels.journal,
      fun r => State.radioKept_iff.2 (cancels.core r), cancels.settings⟩
    rw [State.cancelAttempt_call, if_pos wanted]
    show h.call.state ≠ _
    rcases calling with k | k | k | k | k <;> rw [k] <;> decide
  · have yes : h.AttemptOrder a.radio a.number := ⟨b, c, d, e, f, queued⟩
    have withdrawn := State.cancelAll_queued alone yes
    obtain ⟨call, clears, kept, ended⟩ := State.endCall_over (h := h) (by
      rw [withdrawn]; exact h.endQuietly_clears a .withdrawn (.inl busy))
      (by rw [withdrawn]; exact State.withdraw_call_alone alone) part lines
    have idle : h.endsIdle ([a].map (·.radio)) := never.imp id .inl
    have stays (n : ConnectionNote) : ¬ h.cancelAll.stopping.Returns n := fun back =>
      State.endsIdle_no idle n ((clears.returns kept).1 back)
    have released := ended.released (clears.released a (List.mem_singleton_self a))
    have rested : h.Rested h.endCall a.radio := ended.rested ((h.withdraw_rested a yes).congr
      (by rw [withdrawn]; exact (State.stopping_passes _).core _)
      (fun o kind => by rw [withdrawn]; exact (State.stopping_passes _).mem _ o kind))
    obtain ⟨d, since, record⟩ := h.endRecord_is .callerEnd
    obtain ⟨d', since', record'⟩ := h.attemptRecord_is a .withdrawn none
    rw [unconnected] at since'
    refine ⟨h.endCall, answers (endRequest_endCall calling part), (ended.idle stays).1.trans (by rw [call]; rfl),
      (congrArg RadioContext.state released : _), rested.1, rested.2.1,
      ended.radioKept clears fun x mem => by rw [List.mem_singleton.1 mem]; exact (otherRadio_ne _).symm,
      ⟨_, _, ⟨d, record, since⟩, ⟨d', since', record'⟩, ended.journals clears kept (by simp; omega)⟩,
      fun i x at_ same => ?_, ended.settingsKept clears⟩
    exact ended.unpinned stays (clears.unpinned a (List.mem_singleton_self a)) x (same ▸ at_)

end Sys2Proof.Machine
end

section
/-! PROOFS. A radio that falls silent under its attempt, and the failure of the one attempt in flight (R62, R96, R114). -/

namespace Sys2Proof.Machine

section
variable {s t u : State} {r : Radio} {a : Attempt} {c : Cause}

/-! ### The call controller hears of a lost radio (R114, R146) -/

theorem State.losePart_absent (none : s.call.part = none) : s.losePart r c = s := by
  unfold State.losePart
  rw [none]

/-- The only attempt in flight is lost with its radio (R114). -/
theorem State.loseRadio_alone (alone : s.call.attempts = [a]) (own : a.radio = r) :
    s.loseRadio r c = settle s ((s.loseAttempt a c).losePart r c) := by
  have mine : s.call.attempts.filter (fun x => x.radio == r) = [a] := by
    rw [alone, List.filter_cons_of_pos (by rw [own]; exact beq_self_eq_true r)]
    rfl
  exact congrArg (fun l : List Attempt => settle s ((l.foldl (fun s a => s.loseAttempt a c) s).losePart r c)) mine

/-- A wanted attempt that is not connected fails with its radio (R114). -/
theorem State.loseAttempt_wanted (wanted : a.disposition = none) (step : a.step ≠ .connected) :
    s.loseAttempt a c = s.failAttempt a c false := by
  unfold State.loseAttempt
  rw [wanted]
  exact if_neg step

theorem State.loseRadio_wanted (alone : s.call.attempts = [a]) (own : a.radio = r) (wanted : a.disposition = none)
    (step : a.step ≠ .connected) (placing : s.call.state = .placing ∨ s.call.state = .recovering)
    (base : 0 < s.profile.backoff) (part : s.call.part = none) : s.loseRadio r c = s.failedAlone a c false := by
  have partless : (s.failAttempt a c false).call.part = none := by
    rw [State.failAttempt_alone alone placing base, State.backedOff_call]
    show (s.failed a c false).call.part = _
    rw [(s.failed_quits a c false).call, State.failing_call]
    exact part
  rw [State.loseRadio_alone alone own, State.loseAttempt_wanted wanted step, State.losePart_absent partless]
  exact settle_failAttempt_alone alone placing base

/-! ### Silence, before and after the call controller hears of it (R62) -/

/-- What the silence of the radio leaves for the call controller to see. -/
structure State.Alike (s u : State) (r : Radio) : Prop where
  call : u.call = s.call
  journal : u.journal = s.journal
  other : u.core (otherRadio r) = s.core (otherRadio r)
  settings : s.settingsKept u

theorem State.silenced_alike (s : State) (r : Radio) : s.Alike (s.silenced r) r := by
  have around := (s.silenced_schedules r).quiet.around
  refine ⟨around.call.trans (s.setRadioState_call r _), around.journal.trans (s.setRadioState_journal r _), ?_,
    (State.setRadioState_inner s r .silent).settings.trans around.settings⟩
  rw [around.core, State.setRadioState_core, if_neg (otherRadio_ne r)]

theorem State.silenced_state (s : State) (r : Radio) : ((s.silenced r).radio r).state = .silent :=
  ((s.silenced_schedules r).quiet.state r).trans (s.setRadioState_state r _)

theorem State.holdSilent_posts (s : State) (r : Radio) : Posts s (s.holdSilent r) :=
  (s.mapTable_posts _).trans (.trans (t := (s.holdEntries r).setSilentHold r (some 0)) (.of_ports rfl)
    ((State.post_posts _ .radio).trans (State.snoozeTest_tends (e := NoneEnds) _ false).posts))

/-- The failure of the only attempt by the silence of its radio leaves what a failure leaves, but for the radio. -/
theorem State.Alike.failedTo (alike : s.Alike u a.radio) (hyp : s.Failing a) :
    s.FailedTo ((u.failedAlone a c false).holdSilent a.radio) a c := by
  obtain ⟨alone, -, unconnected, -, placing, -, base, room, failures, radios, -⟩ := hyp
  have quits := u.failed_quits a c false
  have around := (u.failedAlone a c false).holdSilent_around a.radio
  refine ⟨around.call.trans ((State.failAttempt_alone_call (by rw [alike.call]; exact alone) (by rw [alike.call]; exact failures)
      (by rw [alike.call]; exact radios _)).trans (by rw [alike.call]; rfl)),
    ⟨_, s.since_lasted a.ordered, around.journal.trans (State.backedOff_journal.trans
      ((quits.journal (by rw [alike.journal]; exact room)).trans ?_))⟩, ?_,
    State.holdSilent_posts _ _ .call (by decide) (State.backedOff_posted ?_), State.holdSilent_posted _ _,
    alike.settings.trans (quits.settings.trans ((State.setStagger_settings _).trans
      (State.backedOff_settings.trans around.settings)))⟩
  · rw [State.attemptRecord_congr _ (congrArg CallRecord.number alike.call) (congrArg Journal.clock alike.journal), alike.journal]
    unfold State.attemptRecord
    rw [unconnected]
    rfl
  · rw [State.radioKept_iff, around.core]
    exact (State.backedOff_core _).trans ((State.radioKept_iff.1 (quits.other (otherRadio_ne _)
      (u.failing_core_other a c false (otherRadio_ne _)))).trans alike.other)
  · show (u.failed a c false).call.state = _ ∨ (u.failed a c false).call.state = _
    rw [quits.call, State.failing_call, alike.call]
    exact placing

/-- A silent radio is not released (R69). -/
theorem State.failedAlone_silent (silent : (u.radio a.radio).state = .silent) :
    (((u.failedAlone a c false).holdSilent a.radio).radio a.radio).state = .silent := by
  have core := (State.backedOff_core (s := (u.failed a c false).setStagger .stopped) a.radio).trans
    ((u.failed_quits a c false).core a.radio)
  rw [if_pos rfl] at core
  refine (((u.failedAlone a c false).holdSilent_around a.radio).state a.radio).trans
    ((congrArg RadioContext.state core : _).trans ?_)
  rw [RadioContext.released_state]
  show ((u.failing a c false).radio a.radio).state.released = _
  rw [State.failing_state, silent]
  rfl

end

/-- Settles O55: each cause by the event that brings it, and its record, counts and entry by what the end of an attempt
leaves. -/
theorem attemptFails : Obligations.AttemptFails := by
  unfold Obligations.AttemptFails
  refine ⟨fun s r reset => ⟨fun still => ?_, fun a hyp radio runs queued own => ?_⟩, fun s n reset => ⟨fun still => ?_,
    fun still => ?_, fun a hyp number runs => ?_, fun a hyp number runs => ?_⟩, fun s r a cause c speaks hyp radio early given => ?_,
    fun s r a reset hyp radio step runs => ?_⟩
  · refine State.next_event reset ?_
    unfold State.takeExpired
    rw [still]
    rfl
  · have hyp : s.Failing a := hyp
    subst radio
    have expired : s.takeExpired a.radio = (s.untaken a.radio).failedAlone a .takeTimeout false := by
      obtain ⟨alone, -, -, -, placing, -, base, -⟩ := hyp.untaken
      have alone' := alone
      rw [State.untaken_call] at alone'
      refine (if_pos (Option.isSome_iff_ne_none.2 runs)).trans ((State.takeTimeout_of alone' queued own).trans ?_)
      exact settle_failAttempt_alone alone placing base
    obtain ⟨take, orders⟩ := s.untaken_failed a .takeTimeout
    exact ⟨_, State.next_event reset expired, (hyp.untaken.failedTo _ _).of_untaken,
      (hyp.untaken.freedTo (by decide)).of_untaken, take, orders⟩
  · exact State.next_event reset (State.deadlineExpired_still _ still)
  · exact State.next_event reset (State.deadlineExpired_still _ still)
  · have hyp : s.Failing a := hyp
    subst number
    exact ⟨_, State.next_event reset (hyp.deadline _ runs), hyp.failedTo _ _, hyp.freedTo (by decide), hyp.cancel _⟩
  · have hyp : s.Failing a := hyp
    subst number
    exact ⟨_, State.next_event reset (hyp.deadline _ runs), hyp.failedTo _ _, hyp.freedTo (by decide), hyp.cancel _⟩
  · have hyp : (s.heardOn r).Failing a := hyp
    subst radio
    have progress := progress_next speaks (reportOf_failed_of given) (number := a.number)
      ((progressReport_named (by rw [hyp.1]; exact List.mem_singleton_self a) (by rw [hyp.1]; simp) hyp.2.2.2.1 _).trans
        (progressAttempt_failed hyp.2.1 early c))
    rw [settle_failAttempt_alone hyp.1 hyp.2.2.2.2.1 hyp.2.2.2.2.2.2.1] at progress
    refine ⟨_, progress, hyp.failedTo _ _, hyp.freedTo ?_⟩
    rcases given with ⟨-, rfl⟩ | ⟨-, rfl⟩ | ⟨-, rfl⟩ | ⟨-, rfl⟩ <;> decide
  · have hyp : s.Failing a := hyp
    subst radio
    obtain ⟨alone, wanted, -, -, placing, -, base, -, -, -, part⟩ := id hyp
    have alike := s.silenced_alike a.radio
    refine ⟨_, State.next_event reset ?_, alike.failedTo hyp, State.failedAlone_silent (s.silenced_state _)⟩
    rw [show s.silenceExpired a.radio = s.fallSilent a.radio from if_pos (Option.isSome_iff_ne_none.2 runs),
      State.fallSilent_eq, State.loseRadio_wanted (by rw [alike.call]; exact alone) rfl wanted step
        (by rw [alike.call]; exact placing) (by rw [alike.settings.2.2]; exact base) (by rw [alike.call]; exact part)]

end Sys2Proof.Machine
end

section
/-! PROOFS. The end of a callback leg, and of the call with it (R100, R144, R146). -/

namespace Sys2Proof.Machine

/-! ### The return to CALLBACK, or to IDLE without a held radio (R144) -/

section
variable {s t w : State} {p : CallbackPart} {k : Held} {reason : EndReason}

theorem State.removeOffer_passes (s : State) : Passes s s.removeOffer :=
  (Passes.mapCall s _).trans (.of_tends (State.snoozeTest_tends (e := NoneEnds) _ false))

theorem State.endPart_passes (s : State) : Passes s s.endPart := (Passes.mapCall s _).trans (.setCall _ _)

theorem State.removeOffer_gone (part : s.call.part = some p) :
    s.removeOffer.call = { s.call with part := some p.offerGone } := by
  rw [State.removeOffer_call, part]
  rfl

theorem State.backToCallback_held (held : p.held = some k) :
    s.backToCallback p = (s.removeOffer.enqueue k.radio (.callback (.hold k.network k.cell))).setCall .callback := by
  unfold State.backToCallback
  rw [held]
  rfl

theorem State.backToCallback_lost (lost : p.held = none) : s.backToCallback p = (s.removeOffer.setCall .callback).endPart := by
  unfold State.backToCallback
  rw [lost]

theorem State.backToCallback_passes (s : State) (p : CallbackPart) : Passes s (s.backToCallback p) := by
  cases held : p.held with
  | some k => rw [State.backToCallback_held held]; exact s.removeOffer_passes.trans ((Passes.enqueue _ _ _).trans (.setCall _ _))
  | none => rw [State.backToCallback_lost held]; exact s.removeOffer_passes.trans ((Passes.setCall _ _).trans (State.endPart_passes _))

theorem State.backToCallback_posted (part : s.call.part = some p) (ending : s.call.state = .ending) :
    ((s.backToCallback p).port .station).pending.call = true := by
  have ne : s.removeOffer.call.state ≠ .callback := by
    rw [State.removeOffer_gone part]
    show s.call.state ≠ _
    rw [ending]
    decide
  cases held : p.held with
  | some k =>
    rw [State.backToCallback_held held]
    exact State.setCall_posted _ (by rwa [(State.enqueue_quiet _ _ _).call])
  | none =>
    rw [State.backToCallback_lost held]
    exact (State.endPart_passes _).posts .call (by decide) (State.setCall_posted _ ne)

/-- The call and the HOLD with a held radio. -/
theorem State.backToCallback_callback (part : s.call.part = some p) (held : p.held = some k) :
    (s.backToCallback p).call = { s.call with state := .callback, part := some p.offerGone }
    ∧ ((s.radio k.radio).state ≠ .off → (s.radio k.radio).state ≠ .fault →
      .callback (.hold k.network k.cell) ∈ ((s.backToCallback p).radio k.radio).queue) := by
  rw [State.backToCallback_held held]
  constructor
  · rw [State.setCall_other _ (by decide), (State.enqueue_quiet _ _ _).call, State.removeOffer_gone part]
  · intro off fault
    have state : (s.removeOffer.radio k.radio).state = (s.radio k.radio).state :=
      (congrArg RadioContext.state (s.removeOffer_passes.core k.radio) : _)
    rw [State.setCall_mem _ _ _ OrderKind.noConfusion OrderKind.noConfusion, State.queue_enqueue,
      if_pos ⟨rfl, by rwa [state], by rwa [state]⟩]
    exact List.mem_append_right _ (List.mem_singleton_self _)

/-- The call without a held radio (R146). -/
theorem State.backToCallback_idle (part : s.call.part = some p) (lost : p.held = none) :
    (s.backToCallback p).call = { s.call with state := .idle, startTime := none, part := none } := by
  have call : (s.removeOffer.setCall .callback).call = { s.call with state := .callback, part := some p.offerGone } := by
    rw [State.setCall_other _ (by decide), State.removeOffer_gone part]
  have ne : (((s.removeOffer.setCall .callback).mapCall fun c => { c with part := none }).call.state) ≠ .idle := by
    show (s.removeOffer.setCall .callback).call.state ≠ _
    rw [call]
    exact (nofun : CallState.callback ≠ .idle)
  rw [State.backToCallback_lost lost]
  refine (State.setCall_call _ _).trans ((if_neg ne).trans ?_)
  exact (congrArg (fun c : CallRecord => { c with state := .idle, startTime := none, part := none }) call : _)

/-- A CALLBACK order of a radio that is not held stays. -/
theorem State.backToCallback_mem {q : Radio} (other : ∀ k, p.held = some k → k.radio ≠ q) {a : CallbackAction} :
    .callback a ∈ ((s.backToCallback p).radio q).queue ↔ .callback a ∈ (s.radio q).queue := by
  have removed : .callback a ∈ (s.removeOffer.radio q).queue ↔ .callback a ∈ (s.radio q).queue :=
    (State.snoozeTest_tends (e := NoneEnds) (s.mapPart CallbackPart.withoutOffer) false).mem q OrderKind.noConfusion
      OrderKind.noConfusion
  cases held : p.held with
  | some k =>
    rw [State.backToCallback_held held, State.setCall_mem _ _ _ OrderKind.noConfusion OrderKind.noConfusion,
      State.queue_enqueue, if_neg fun h => other k held h.1.symm]
    exact removed
  | none =>
    rw [State.backToCallback_lost held]
    have ended := State.setCall_mem ((s.removeOffer.setCall .callback).mapCall fun c => { c with part := none }) .idle q
      (o := .callback a) OrderKind.noConfusion OrderKind.noConfusion
    have back := s.removeOffer.setCall_mem .callback q (o := .callback a) OrderKind.noConfusion OrderKind.noConfusion
    exact ended.trans (back.trans removed)

/-- The end of a call that has a callback part. -/
theorem State.completeEnding_part (part : s.call.part = some p) :
    s.completeEnding reason = (s.concluded reason).backToCallback p := by
  show (s.concluded reason).afterEnding = _
  unfold State.afterEnding
  rw [show (s.concluded reason).call.part = some p by rw [State.concluded_call]; exact part]

/-! ### A leg that ends (R144) -/

/-- The CALLBACK_LEG record of a leg that ends now. -/
def State.legRecord (s : State) (p : CallbackPart) (o : Offer) (out : RecordOutcome) (reason : Option EndReason) : JournalRecord :=
  ⟨.callbackLeg, s.call.number, some 0, some o.radio, (p.held.filter fun k => k.radio == o.radio).map (·.network),
    (p.held.filter fun k => k.radio == o.radio).map (·.generation), (p.held.filter fun k => k.radio == o.radio).map (·.cell),
    some out, reason, (o.connected.map s.since).getD 0, s.journal.clock.sec, 0⟩

/-- The part while its leg is closed, before the call has ended. -/
def CallbackPart.closed (p : CallbackPart) : CallbackPart :=
  { p with offer := p.offer.map fun o => { o with connected := none } }

variable {o : Offer} {out : RecordOutcome} {why : Option EndReason} {b : Time}

theorem State.legRecord_is (connected : o.connected = some b) : s.LegRecord p o out why b (s.legRecord p o out why) := by
  refine ⟨_, s.since_lasted b, ?_⟩
  unfold State.legRecord
  rw [connected, Option.map_some, Option.getD_some]

/-- What the end of a leg leaves, before the call ends with it: the radio released and the record written. -/
theorem State.closeLeg_left (part : s.call.part = some p) :
    (s.closeLeg p o out why).call = { s.call with part := some p.closed }
    ∧ (∀ q, (s.closeLeg p o out why).core q = if q = o.radio then (s.core q).released else s.core q)
    ∧ (∀ i, (s.closeLeg p o out why).entry i = (s.entry i).bind (s.comeBack o.radio))
    ∧ (s.journal.records.length < 32 → s.Journals (s.closeLeg p o out why) [s.legRecord p o out why])
    ∧ Posts s (s.closeLeg p o out why) ∧ s.settingsKept (s.closeLeg p o out why) := by
  have journal := s.release_journal o.radio
  refine ⟨?_, fun q => s.release_core o.radio q, fun i => s.release_entry_eq o.radio i, fun room => ?_, ?_, ?_⟩
  · refine (congrArg (fun c : CallRecord => { c with part := c.part.map CallbackPart.closed }) (s.release_call o.radio) : _).trans ?_
    rw [part]
    rfl
  · refine ((s.release o.radio).writeRecord_journal _ (by rw [journal]; exact room)).trans ?_
    rw [journal]
    unfold State.legRecord State.since State.now
    rw [State.release_call, journal]
  · exact (s.release_posts o.radio).trans (State.writeRecord_posts _ _)
  · have written : (s.release o.radio).settingsKept ((s.release o.radio).recordLeg p o out why) :=
      Inner.settings (.record (s.release o.radio) _)
    exact (s.release_inner o.radio).settings.trans written

/-- A leg has ended and the call with it: `w` is the state after the leg's own end, in ENDING (R100, R144). -/
theorem State.legOver_of (part : s.call.part = some p) (connected : o.connected = some b)
    (busy : (s.radio o.radio).state = .inCall) (room : s.journal.records.length < 31)
    (passes : Passes (s.closeLeg p o out why) w)
    (call : w.call = { s.call.unrouted with state := .ending, ending := w.call.ending, part := some p.closed }) :
    s.LegOver (w.completeEnding reason) p o out why reason b := by
  obtain ⟨-, core, entry, journal, posts, settings⟩ := State.closeLeg_left (o := o) (out := out) (why := why) part
  have partW : w.call.part = some p.closed := by rw [call]
  have stateW : w.call.state = .ending := by rw [call]
  have eq := State.completeEnding_part (reason := reason) partW
  have partC : (w.concluded reason).call.part = some p.closed := by rw [State.concluded_call]; exact partW
  have concludes : w.Concludes (w.completeEnding reason) reason := by
    rw [eq]
    exact State.concludes_of (.refl _) (.refl _) (State.backToCallback_passes _ _)
      (State.backToCallback_posted partC (by rw [State.concluded_call]; exact stateW))
  have entryC (i : Nat) : (w.completeEnding reason).entry i
      = ((s.entry i).bind (s.comeBack o.radio)).map ({ · with excludedFor := none }) := by
    rw [eq, (State.backToCallback_passes _ _).entry, State.concluded_entry, passes.entry, entry]
  have own : (w.completeEnding reason).core o.radio = { s.core o.radio with state := .ready, start := none } := by
    rw [concludes.core, passes.core, core, if_pos rfl, RadioContext.released_busy (by exact .inr busy)]
  have first := journal (by omega)
  have record : w.endRecord reason = s.endRecord reason := by
    unfold State.endRecord State.since State.now
    rw [call, passes.journal, first]
    rfl
  refine ⟨⟨_, _, State.legRecord_is connected, s.endRecord_is reason, ?_⟩, fun k held => ?_, fun lost => ?_, ?_, ?_,
    (settings.trans passes.settings).trans concludes.settings, concludes.posted, fun i none => ?_, fun i f at_ other => ?_⟩
  · have second := concludes.journal (by rw [passes.journal, first.length]; exact Nat.succ_lt_succ room)
    refine first.trans (second.trans ?_)
    rw [passes.journal, record]
  · have state : ((w.concluded reason).radio k.radio).state ≠ .off ∧ ((w.concluded reason).radio k.radio).state ≠ .fault
        ↔ (s.radio k.radio).state ≠ .off ∧ (s.radio k.radio).state ≠ .fault := by
      have same : ((w.concluded reason).radio k.radio).state
          = if k.radio = o.radio then (s.radio k.radio).state.released else (s.radio k.radio).state := by
        rw [State.concluded_radio]
        refine (congrArg RadioContext.state ((passes.core k.radio).trans (core k.radio)) : _).trans ?_
        split
        · exact RadioContext.released_state _
        · rfl
      rw [same]
      split
      · next here => rw [here, busy]; decide
      · rfl
    obtain ⟨called, hold⟩ := State.backToCallback_callback partC (show p.closed.held = some k from held)
    rw [← eq, State.concluded_call, call] at called
    rw [← eq] at hold
    exact ⟨called, fun off fault => hold (state.2 ⟨off, fault⟩).1 (state.2 ⟨off, fault⟩).2⟩
  · have called := State.backToCallback_idle partC (show p.closed.held = none from lost)
    rw [← eq, State.concluded_call, call] at called
    exact called
  · exact State.radio_of_core (c := { s.radio o.radio with state := .ready, start := none }) own
  · rw [State.radioKept_iff, concludes.core, passes.core, core, if_neg (otherRadio_ne _)]
  · rw [entryC, none]
    rfl
  · rw [entryC, at_, Option.bind_some, State.comeBack_kept other]
    rfl

/-- The end of a call with a callback part leaves it in CALLBACK or in IDLE, where nothing more is heard of its radios. -/
theorem State.LegOver.settled (h : s.LegOver t p o out why reason b) (x : State) : settle x t = t := by
  have state : t.call.state = .idle ∨ t.call.state = .callback := by
    obtain ⟨-, held, lost, -⟩ := h
    cases k : p.held with
    | some k' => exact .inr (by rw [(held k' k).1])
    | none => exact .inl (by rw [lost k])
  refine settle_deaf ?_ ?_ ?_ <;> rcases state with k | k <;> rw [k] <;> decide

end

end Sys2Proof.Machine
end

section
/-! PROOFS. PROGRESS with the number 0: offers, and callback legs that connect and end (R143, R144). -/

namespace Sys2Proof.Machine

/-! ### A radio that becomes IN_CALL (R69) -/

section
variable {s : State} {r q : Radio} {f : RadioState}

theorem RadioContext.enter_inCall {c : RadioContext} (working : c.state.isWorking = true) :
    c.enter .inCall = { c with state := .inCall, start := none } := by
  unfold RadioContext.enter
  rw [working]
  rfl

theorem State.enterCall_tends (at_ : (s.radio r).state = f) : Tends (EndsOn r) (s.setRadioState r .inCall) (s.enterCall r f) := by
  have told : Schedules (EndsOn r) (s.setRadioState r .inCall) ((s.setRadioState r .inCall).tellScheduler r) :=
    State.tellScheduler_schedules _ r (.inl rfl)
  rw [show s.enterCall r f = ((s.setRadioState r .inCall).tellScheduler r).snoozeTest false from if_pos at_]
  exact (Tends.schedules told).trans (State.snoozeTest_tends _ false)

theorem State.enterCall_call (at_ : (s.radio r).state = f) : (s.enterCall r f).call = s.call :=
  (State.enterCall_tends at_).quiet.call.trans (s.setRadioState_call r _)

theorem State.enterCall_core (at_ : (s.radio r).state = f) (q : Radio) :
    (s.enterCall r f).core q = if q = r then (s.core q).enter .inCall else s.core q :=
  ((State.enterCall_tends at_).quiet.core q).trans (s.setRadioState_core r q _)

theorem State.enterCall_settings (at_ : (s.radio r).state = f) : s.settingsKept (s.enterCall r f) :=
  (State.setRadioState_inner s r .inCall).settings.trans (State.enterCall_tends at_).quiet.around.settings

theorem State.enterCall_journal (at_ : (s.radio r).state = f) : (s.enterCall r f).journal = s.journal :=
  (State.enterCall_tends at_).quiet.journal.trans (s.setRadioState_journal r _)

theorem State.enterCall_table (at_ : (s.radio r).state = f) (loud : f ≠ .silent) : (s.enterCall r f).table = s.table :=
  (State.enterCall_tends at_).quiet.table.trans (s.setRadioState_table_open r (by rwa [at_]))

theorem State.enterCall_posts (at_ : (s.radio r).state = f) : Posts s (s.enterCall r f) :=
  (s.setRadioState_posts r _).trans (State.enterCall_tends at_).posts

end

/-! ### A callback leg connects (R143) -/

section
variable {s : State} {r : Radio} {p : CallbackPart} {o : Offer}

/-- The state in which a radio that was surveying has ended its survey. -/
def State.surveyEnded (s : State) (r : Radio) : State := if (s.radio r).state = .surveying then s.finishSurvey r else s

/-- What the end of a survey leaves to the connection of a callback leg. -/
theorem State.surveyEnded_left (callback : s.call.state = .callback)
    (opened : (s.radio r).state = .ready ∨ (s.radio r).state = .surveying) :
    (s.surveyEnded r).call = s.call ∧ ((s.surveyEnded r).radio r).state = .ready
    ∧ (∀ q, q ≠ r → (s.surveyEnded r).core q = s.core q)
    ∧ ((s.surveyEnded r).core r).enter .inCall = { s.core r with state := .inCall, start := none }
    ∧ (s.surveyEnded r).journal = s.journal ∧ s.settingsKept (s.surveyEnded r) ∧ Posts s (s.surveyEnded r)
    ∧ ((s.radio r).state = .surveying → ((s.surveyEnded r).surveyOf r).isRunning = false)
    ∧ ((s.radio r).state = .ready → (s.surveyEnded r).table = s.table) := by
  unfold State.surveyEnded
  by_cases surveying : (s.radio r).state = .surveying
  · rw [if_pos surveying]
    have deaf : (s.scanned r).callEvent r = s.scanned r := by
      refine State.callEvent_deaf r ?_ ?_ ?_ <;> rw [State.scanned_call, callback] <;> exact nofun
    obtain ⟨quiet, posts, -⟩ := State.finishSurvey_deaf surveying deaf
    have core (q : Radio) := (quiet.core q).trans (s.scanned_core r q)
    refine ⟨quiet.call.trans (s.scanned_call r), (quiet.state r).trans (s.scanned_state r),
      fun q ne => (core q).trans (if_neg ne), ?_, quiet.journal.trans (s.scanned_journal r), (State.finishSurvey_inner s r).settings,
      (s.scanned_posts r).trans posts, fun _ => (SurveyState.isRunning_eq_false _).2 (s.finishSurvey_stopped r),
      fun ready => absurd (ready.symm.trans surveying) nofun⟩
    have working : (s.core r).state.isWorking = true := by rw [State.core_state, surveying]; rfl
    rw [core, if_pos rfl, RadioContext.enter_inCall rfl]
    unfold RadioContext.enter
    rw [working]
    rfl
  · rw [if_neg surveying]
    have ready := opened.resolve_right surveying
    exact ⟨rfl, ready, fun _ _ => rfl, RadioContext.enter_inCall (by rw [State.core_state, ready]; rfl), rfl, ⟨rfl, rfl, rfl⟩, .refl s,
      fun yes => absurd yes surveying, fun _ => rfl⟩

/-- The part with the time of its offer's connection noted. -/
def CallbackPart.connectedAt (p : CallbackPart) (b : Time) : CallbackPart :=
  { p with offer := p.offer.map fun o => { o with connected := some b } }

theorem State.connectLeg_eq : s.connectLeg r =
    ((((s.surveyEnded r).enterCall r .ready).mapPart (·.connectedAt s.now)).setRoute (some r)).setCall .connected := rfl

theorem Route.lines (r : Radio) : ((some r == some Radio.A) = decide (r = .A)) ∧ ((some r == some Radio.B) = decide (r = .B)) := by
  cases r <;> exact ⟨rfl, rfl⟩

/-- What the connection of a callback leg leaves (R143). -/
theorem State.connectLeg_left (callback : s.call.state = .callback) (part : s.call.part = some p) (offer : p.offer = some o)
    (route : s.call.route = none) (opened : (s.radio r).state = .ready ∨ (s.radio r).state = .surveying) :
    (s.connectLeg r).call = { s.call with
        state := .connected, part := some { p with offer := some { o with connected := some s.journal.clock } }
        route := some r, lineA := decide (r = .A), lineB := decide (r = .B) }
    ∧ (s.connectLeg r).radio r = { s.radio r with state := .inCall, start := none, queue := ((s.connectLeg r).radio r).queue }
    ∧ s.radioKept (s.connectLeg r) (otherRadio r) ∧ (s.connectLeg r).journal = s.journal ∧ s.settingsKept (s.connectLeg r)
    ∧ ((s.connectLeg r).port .station).pending.call = true ∧ ((s.connectLeg r).port .station).pending.route = true
    ∧ ((s.radio r).state = .surveying → ∀ u w x, (s.connectLeg r).surveyOf r ≠ .running u w x)
    ∧ ((s.radio r).state = .ready → (s.connectLeg r).table = s.table) := by
  obtain ⟨call, ready, others, own, journal, settings, -, stopped, table⟩ := State.surveyEnded_left callback opened
  rw [State.connectLeg_eq]
  set v := (s.surveyEnded r).enterCall r .ready with hv
  set w := (v.mapPart (·.connectedAt s.now)).setRoute (some r) with hw
  have noted : Passes v w := (Passes.mapCall v _).trans (.setRoute _ _)
  have passes : Passes v (w.setCall .connected) := noted.trans (.setCall _ _)
  have core (q : Radio) := (passes.core q).trans (State.enterCall_core ready q)
  have callV : v.call = s.call := (State.enterCall_call ready).trans call
  have off : (v.mapPart (·.connectedAt s.now)).call.route ≠ some r := by
    show v.call.route ≠ _
    rw [callV, route]
    exact nofun
  have callW : w.call = { s.call with
      part := some { p with offer := some { o with connected := some s.journal.clock } }
      route := some r, lineA := decide (r = .A), lineB := decide (r = .B) } := by
    rw [hw, State.setRoute_call, if_neg off, (Route.lines r).1, (Route.lines r).2]
    show ({ v.call with
      part := v.call.part.map (·.connectedAt s.now), route := some r, lineA := decide (r = .A), lineB := decide (r = .B) } : CallRecord) = _
    rw [callV, part, Option.map_some]
    unfold CallbackPart.connectedAt
    rw [offer, Option.map_some]
    rfl
  refine ⟨?_, State.radio_of_core (c := { s.radio r with state := .inCall, start := none })
      ((core r).trans ((if_pos rfl).trans own)), State.radioKept_iff.2 ?_,
    passes.journal.trans ((State.enterCall_journal ready).trans journal),
    settings.trans ((State.enterCall_settings ready).trans passes.settings), State.setCall_posted _ ?_,
    State.setCall_posts w _ .route (by decide) (State.setRoute_posted _ off), fun surveying => ?_,
    fun now => passes.table.trans ((State.enterCall_table ready (nofun : RadioState.ready ≠ .silent)).trans (table now))⟩
  · rw [State.setCall_other _ (by decide), callW]
  · rw [core, if_neg (otherRadio_ne r), others _ (otherRadio_ne r)]
  · rw [callW]
    show s.call.state ≠ _
    rw [callback]
    exact nofun
  · have set : (((s.surveyEnded r).setRadioState r .inCall).surveyOf r).isRunning = false := by
      rw [surveyOf_of (State.setRadioState_survey _ _ _)]
      exact stopped surveying
    have ended := (State.enterCall_tends ready).stopped set
    have routed : (w.surveyOf r).isRunning = false := by
      rw [hw, surveyOf_of ((State.setRoute_same _ _).2.2.1)]
      exact ended
    refine (SurveyState.isRunning_eq_false _).1 (((State.setCall_stirs w .connected).runs r).2 ?_)
    split <;> exact routed

end

/-! ### A callback leg that is up (R144) -/

section
variable {h : State} {p : CallbackPart} {o : Offer} {b : Time}

/-- An ending whose leg has been closed completes (R98). -/
theorem State.testEnding_closed {s : State} (offer : p.offer = some o) (ending : s.call.state = .ending) (empty : s.call.attempts = [])
    (part : s.call.part = some p.closed) : s.testEnding = s.completeEnding .callerEnd := by
  have closed : p.closed.offer = some { o with connected := none } := (congrArg (Option.map _) offer : _)
  refine if_pos ⟨ending, empty, ?_⟩
  unfold State.legUp
  rw [part, Option.any_some, closed]
  rfl

theorem State.completeEnding_posts {w : State} {reason : EndReason} (part : w.call.part = some p) : Posts w (w.completeEnding reason) := by
  rw [State.completeEnding_part part]
  exact ((w.writeRecord_posts _).trans ((State.clearExclusions_posts _).trans (.of_ports (t := w.concluded reason) rfl))).trans
    (State.backToCallback_passes _ _).posts

/-- A leg that drops, its radio released and the route NONE (R144). -/
theorem State.dropCallback_call (c : Cause) (part : h.call.part = some p)
    (lines : h.call.route = none → h.call.lineA = false ∧ h.call.lineB = false) : (h.dropCallback p o c).call =
    { h.call.unrouted with state := .ending, ending := some 0, part := some p.closed } := by
  obtain ⟨called, -⟩ := State.closeLeg_left (o := o) (out := .dropped c) (why := none) part
  have unrouted : ((h.closeLeg p o (.dropped c) none).setRoute none).call = { h.call.unrouted with part := some p.closed } := by
    rw [State.setRoute_none (by rw [called]; exact lines), called]
    rfl
  refine (State.setCall_other _ (by decide)).trans ?_
  exact (congrArg (fun x : CallRecord => { x with ending := some 0, state := .ending }) unrouted : _)

theorem State.dropCallback_passes (h : State) (p : CallbackPart) (o : Offer) (c : Cause) :
    Passes ((h.closeLeg p o (.dropped c) none).setRoute none) (h.dropCallback p o c) := (Passes.mapCall _ _).trans (.setCall _ _)

section
variable (c : Cause) (part : h.call.part = some p) (offer : p.offer = some o) (empty : h.call.attempts = [])
include part offer empty

theorem State.dropCallback_ends (lines : h.call.route = none → h.call.lineA = false ∧ h.call.lineB = false) :
    (h.dropCallback p o c).testEnding = (h.dropCallback p o c).completeEnding .callerEnd := by
  have call := State.dropCallback_call (o := o) c part lines
  exact State.testEnding_closed offer (by rw [call]) (by rw [call]; exact empty) (by rw [call])

/-- A leg that drops ends the call (R144). -/
theorem State.dropCallback_over (connected : o.connected = some b) (busy : (h.radio o.radio).state = .inCall)
    (room : h.journal.records.length < 31) (lines : h.call.route = none → h.call.lineA = false ∧ h.call.lineB = false) :
    h.LegOver (h.dropCallback p o c).testEnding p o (.dropped c) none .callerEnd b := by
  rw [State.dropCallback_ends c part offer empty lines]
  refine State.legOver_of part connected busy room ((Passes.setRoute _ none).trans (h.dropCallback_passes p o c)) ?_
  rw [State.dropCallback_call c part lines]

/-- ROUTE is posted where the leg had the route (R136). -/
theorem State.dropCallback_posted {r : Radio} (route : h.call.route = some r) :
    ((h.dropCallback p o c).testEnding.port .station).pending.route = true := by
  have lines : h.call.route = none → h.call.lineA = false ∧ h.call.lineB = false := fun off => absurd (off.symm.trans route) nofun
  have on : (h.closeLeg p o (.dropped c) none).call.route ≠ none := by
    rw [(State.closeLeg_left part).1]
    show h.call.route ≠ _
    rw [route]
    exact nofun
  rw [State.dropCallback_ends c part offer empty lines]
  refine State.completeEnding_posts (by rw [State.dropCallback_call c part lines]) .route (by decide) ?_
  exact (h.dropCallback_passes p o c).posts .route (by decide) (State.setRoute_posted _ on)

end

/-- A leg that is cleared in ENDING ends the call (R144). -/
theorem State.clearCallback_over (part : h.call.part = some p) (offer : p.offer = some o) (connected : o.connected = some b)
    (ending : h.call.state = .ending) (empty : h.call.attempts = []) (busy : (h.radio o.radio).state = .inCall)
    (room : h.journal.records.length < 31) (routed : h.call.route = none ∧ h.call.lineA = false ∧ h.call.lineB = false) :
    h.LegOver (h.clearCallback p o) p o .connectedEnded none .callerEnd b := by
  obtain ⟨called, -⟩ := State.closeLeg_left (o := o) (out := .connectedEnded) (why := none) part
  have completes := State.testEnding_closed (s := h.closeLeg p o .connectedEnded none) offer (by rw [called]; exact ending)
    (by rw [called]; exact empty) (by rw [called])
  rw [show h.clearCallback p o = _ from completes]
  refine State.legOver_of part connected busy room (.refl _) ?_
  rw [called, CallRecord.unrouted_self routed.1 routed.2.1 routed.2.2, ← ending]

end

/-! ### Reports on number 0 (R143) -/

section
variable {h : State} {r : Radio} {p : CallbackPart} {o : Offer}

/-- A report on number 0 from the offering radio is its offer's. -/
theorem progressReport_offer (part : h.call.part = some p) (offer : p.offer = some o) (radio : o.radio = r) (x : Report) :
    h.progressReport r 0 x = h.progressCallback p o x := by
  rw [progressReport_zero]
  unfold State.progressZero
  rw [part]
  dsimp only
  rw [offer]
  exact if_pos radio

theorem progressCallback_callback (callback : h.call.state = .callback) (x : Report) :
    h.progressCallback p o x = h.progressOffer o.radio o.ring x := by
  unfold State.progressCallback
  rw [callback]

theorem progressCallback_connected (state : h.call.state = .connected) (up : o.connected ≠ none) (x : Report) :
    h.progressCallback p o x = h.progressLeg p o x := by
  unfold State.progressCallback
  rw [state]
  exact if_pos (Option.isSome_iff_ne_none.2 up)

theorem progressCallback_ending (state : h.call.state = .ending) (up : o.connected ≠ none) (x : Report) :
    h.progressCallback p o x = h.progressEndingLeg p o x := by
  unfold State.progressCallback
  rw [state]
  exact if_pos (Option.isSome_iff_ne_none.2 up)

theorem progressOffer_still {x : Report} {ring : Ring} (still : x.code = 0 ∨ x.code = 1 ∨ x.code = 4 ∨ (x.code = 2 ∧ ring = .ringing)) :
    h.progressOffer r ring x = (h, only .outOfOrder) := by
  cases x
  case connected =>
    obtain rfl : ring = .ringing := by simpa [Report.code] using still
    rfl
  case failed | cleared => simp [Report.code] at still
  all_goals rfl

theorem progressOffer_gone {x : Report} (ring : Ring) (gone : x.code = 3 ∨ x.code = 5) :
    h.progressOffer r ring x = (h.removeOffer, only .ok) := by
  cases x
  case failed | cleared => rfl
  all_goals simp [Report.code] at gone

theorem progressLeg_still {x : Report} (still : x.code ≠ 4) : h.progressLeg p o x = (h, only .outOfOrder) := by
  cases x
  case dropped => exact absurd rfl still
  all_goals rfl

theorem progressEndingLeg_still {x : Report} (still : x.code = 0 ∨ x.code = 1 ∨ x.code = 3) :
    h.progressEndingLeg p o x = (h, only .outOfOrder) := by
  cases x
  case accepted | alerting | failed => rfl
  all_goals simp [Report.code] at still

theorem progressEndingLeg_over {x : Report} (ends : x.code = 4 ∨ x.code = 5) :
    h.progressEndingLeg p o x = (h.clearCallback p o, only .ok) := by
  cases x
  case dropped | cleared => rfl
  all_goals simp [Report.code] at ends

end

/-- Settles O60: each report on an offer, and on its leg, by the call state. -/
theorem callbackLeg : Obligations.CallbackLeg := by
  intro s r kind cause p o speaks
  dsimp only
  intro part offer radio low caused
  have good : ¬ (5 < kind ∨ ((kind = 3 ∨ kind = 4) ∧ 3 < cause)) := by omega
  obtain ⟨x, report, code⟩ := reportOf_good good
  have next {t : State} {y : Response} (eq : (s.heardOn r).progressCallback p o x = (t, y)) :=
    progress_next (number := 0) speaks report ((progressReport_offer part offer radio x).trans eq)
  have refused {y : Response} (eq : (s.heardOn r).progressCallback p o x = (s.heardOn r, y)) :=
    progress_refused (number := 0) speaks report ((progressReport_offer part offer radio x).trans eq)
  generalize s.heardOn r = h at part next refused
  subst radio
  refine ⟨fun callback => ?_, fun state up => ⟨fun no => ?_, fun c yes told b at_ empty busy room route _ => ?_⟩,
    fun state up => ⟨fun no => ?_, fun two => ?_, fun ends b at_ empty busy room _ route => ?_⟩⟩
  · have eq := progressCallback_callback (p := p) (o := o) callback
    refine ⟨fun still => ?_, fun gone => ?_, fun two answering route opened => ?_⟩
    · exact refused ((eq x).trans (progressOffer_still (by rwa [code])))
    · have passes := h.removeOffer_passes
      have call := State.removeOffer_gone part
      refine ⟨h.removeOffer, ?_, call, passes.radioKept, passes.table, passes.journal, passes.settings⟩
      rw [next ((eq x).trans (progressOffer_gone _ (by rwa [code]))), settle_deaf]
      · rfl
      all_goals rw [call]; show h.call.state ≠ _; rw [callback]; exact nofun
    · subst two
      obtain rfl : x = Report.connected := (Option.some.inj report).symm
      have left := State.connectLeg_left callback part offer route opened
      refine ⟨h.connectLeg o.radio, ?_, left⟩
      have eq' : h.progressCallback p o .connected = (h.connectLeg o.radio, only .ok) := by
        rw [eq, answering]
        rfl
      rw [next eq', settle_deaf]
      · rfl
      all_goals rw [left.1]; exact nofun
  · exact refused ((progressCallback_connected state up x).trans (progressLeg_still (by rwa [code])))
  · subst yes
    have dropped : x = .dropped c := by
      rcases told with ⟨rfl, rfl⟩ | ⟨rfl, rfl⟩ | ⟨rfl, rfl⟩ | ⟨rfl, rfl⟩ <;> exact (Option.some.inj report).symm
    subst dropped
    have drops := State.dropCallback_over c part offer empty at_ busy room fun off => absurd (off.symm.trans (route state)) nofun
    have ended := next ((progressCallback_connected state up _).trans rfl)
    rw [drops.settled] at ended
    refine ⟨_, ended, drops, fun _ => State.dropCallback_posted c part offer empty (route state)⟩
  · exact refused ((progressCallback_ending state up x).trans (progressEndingLeg_still (by rwa [code])))
  · subst two
    obtain rfl : x = Report.connected := (Option.some.inj report).symm
    exact refused ((progressCallback_ending state up _).trans rfl)
  · have clears := State.clearCallback_over part offer at_ state empty busy room (route state)
    have ended := next ((progressCallback_ending state up x).trans (progressEndingLeg_over (by rwa [code])))
    rw [clears.settled] at ended
    exact ⟨_, ended, clears, fun connected => absurd (connected.symm.trans state) nofun⟩

end Sys2Proof.Machine
end
